-- ==== Sys2Proof/Word.lean ====
section
/-! DEFINITION. The word types and the typed request record REQ (30_encoding.md R93), which the whole package shares. -/

namespace Sys2Proof

/-- A 32-bit register value (R12, R90): bit 0 is the least significant. -/
abbrev Word := BitVec 32

/-- An 8-bit command or payload byte (R9). -/
abbrev Byte := BitVec 8

/-- A 7-bit I2C target address (R9, R21). -/
abbrev TargetAddr := BitVec 7

/-- `OP.dir` (R21). -/
inductive Direction where
  | read
  | write
  deriving DecidableEq, Repr

/-- `OP.width` (R21). `other` stands for every size beyond Byte and Word (conflict C2; log 36). -/
inductive Width where
  | byte
  | word
  | other
  deriving DecidableEq, Repr

/-- The request record REQ, which is also the operand record OP (R20, R21, R93). -/
structure Request where
  addr    : TargetAddr
  dir     : Direction
  cmd     : Byte
  width   : Width
  payload : BitVec 16
  deriving DecidableEq, Repr

end Sys2Proof
end

