-- ==== Sys2Proof/Config.lean ====
section
/-! DEFINITION. The configuration of one device, the events of the access trace, and the free values: what the spec
leaves to the implementation or to the environment (00_scope.md R9 to R11, 44_i2c_master.md R210). A free value has no
body: nothing can be proved about which value it is. -/

namespace Sys2Proof

/-- One event of the register access trace (R16): `W(off, v)`, `R(off) = v`, or one `sleep(minUs, maxUs)`. -/
inductive Event where
  | write (off : Nat) (v : Word)
  | read  (off : Nat) (v : Word)
  | sleep (minUs maxUs : Nat)
  deriving DecidableEq, Repr

/-- The parameters of R9 and R10. No step writes them. -/
structure Config where
  /-- BASE, the address of the register window (R60). -/
  base         : Nat
  /-- PRESCALE_400K (R10). -/
  prescale400k : Word
  /-- PRESCALE_100K (R10); no operation writes it. -/
  prescale100k : Word
  /-- TIMING_LO, CSC bits 8:1 (R10, R41). -/
  timingLo     : BitVec 8
  /-- TIMING_HI, CSC bits 24:9 (R10, R41). -/
  timingHi     : BitVec 16
  /-- POLL_BUDGET (R9). -/
  pollBudget   : Nat
  /-- SLEEP_MIN_US (R9). -/
  sleepMinUs   : Nat
  /-- SLEEP_MAX_US (R9). -/
  sleepMaxUs   : Nat
  deriving DecidableEq, Repr

/-- What the spec asks of the parameters: POLL_BUDGET is at least 1 (R9), BASE is a multiple of 4 (R66; log 7), and the
sleep interval is an interval (R156). -/
def Config.wf (c : Config) : Bool :=
  decide (1 ≤ c.pollBudget) && decide (c.base % 4 = 0) && decide (c.sleepMinUs ≤ c.sleepMaxUs)

/-- BASE of the device divided by 4: an open parameter (R10, R61; logs 6 and 7). -/
opaque Config.openBaseQuarter : Nat

/-- PRESCALE_400K of the device: an open parameter (R10; log 6). -/
opaque Config.openPrescale400k : Word

/-- PRESCALE_100K of the device: an open parameter (R10; log 6). -/
opaque Config.openPrescale100k : Word

/-- TIMING_LO of the device: an open parameter (R10; log 6). -/
opaque Config.openTimingLo : BitVec 8

/-- TIMING_HI of the device: an open parameter (R10; log 6). -/
opaque Config.openTimingHi : BitVec 16

/-- CMD right after reset: unspecified (R257; log 9). -/
opaque Config.resetCmd : Word

/-- PRESCALE right after reset: unspecified (R257; log 9). -/
opaque Config.resetPrescale : Word

/-- CSC right after reset, its flags included: unspecified (R257; log 9). -/
opaque Config.resetCsc : Word

/-- BFT right after reset: unspecified (R44, R257; log 9). -/
opaque Config.resetBft : Word

/-- `ENV.read(H, off, c)` (R210): the answer to a read at offset `off` after the history `H`, for the environment's
choice number `c` (log 11). -/
opaque Config.envRead : List Event → Nat → Nat → Word

/-- The flags NAK, RIP, LHE (bit 2, bit 1, bit 0) that the hardware holds after a write of CSC, before the next read:
R202 lets no rule rely on them (log 12). -/
opaque Config.envFlags : List Event → Nat → BitVec 3

/-- Whether the hardware resolves, unseen by any poll, a transaction whose operation timed out (R205: INFLIGHT "may still
be present"; log 13). -/
opaque Config.envResolvesUnseen : List Event → Nat → Bool

/-- The configuration of this hardware: the values R9 gives, and the open parameters of R10. -/
def Config.device : Config where
  base         := 4 * Config.openBaseQuarter
  prescale400k := Config.openPrescale400k
  prescale100k := Config.openPrescale100k
  timingLo     := Config.openTimingLo
  timingHi     := Config.openTimingHi
  pollBudget   := 100
  sleepMinUs   := 70
  sleepMaxUs   := 100

end Sys2Proof
end

