-- ==== Sys2Proof/Syntax.lean ====
section
/-! DEFINITION. The operations of 30_encoding.md R100, one constructor per row of spec/opcode_table.json. -/

namespace Sys2Proof

/-- The seven operations (R3, R100). A bus operation carries the whole of its request but for the two fields that select
the row, `dir` and `width` (R110; `other` leaves the direction free); the operand bits a row does not use stay in the
term, so that what it does with them (R98, R127, R128, R132, R133) can be said. -/
inductive Instr where
  /-- BYTE_READ (R127): `payload` is not read. -/
  | byteRead (addr : TargetAddr) (cmd : Byte) (payload : BitVec 16)
  /-- BYTE_WRITE (R128): bits 7:0 of `payload` are used. -/
  | byteWrite (addr : TargetAddr) (cmd : Byte) (payload : BitVec 16)
  /-- WORD_WRITE (R129). -/
  | wordWrite (addr : TargetAddr) (cmd : Byte) (payload : BitVec 16)
  /-- WORD_READ (R132): every operand is ignored. -/
  | wordRead (addr : TargetAddr) (cmd : Byte) (payload : BitVec 16)
  /-- OTHER (R133): every operand is ignored. -/
  | other (addr : TargetAddr) (dir : Direction) (cmd : Byte) (payload : BitVec 16)
  /-- INIT (R190). -/
  | init
  /-- CAPS (R192). -/
  | caps
  deriving DecidableEq, Repr

end Sys2Proof
end

