-- ==== Sys2Proof/WellFormed.lean ====
section
/-! DEFINITION. Which terms of `Instr` are written as 30_encoding.md R109 writes them: an operand bit that the row does not
use is zero. The widths of the operands need no check, since REQ is typed (R93, R98). Every term, well-formed or not, has
its meaning (R98: an operand bit beyond its row is masked, never rejected). -/

namespace Sys2Proof

/-- A term of `Instr` as a line of R109 gives it (log 36). -/
def Instr.wellFormed : Instr → Bool
  | .byteRead _ _ payload  => payload == 0
  | .byteWrite _ _ payload => payload.extractLsb' 8 8 == 0
  | .wordWrite _ _ _       => true
  | .wordRead _ _ payload  => payload == 0
  | .other _ _ _ payload   => payload == 0
  | .init                  => true
  | .caps                  => true

end Sys2Proof
end

