-- ==== Sys2Proof/Decode.lean ====
section
/-! DEFINITION. The formats CMDWORD and CSCWORD (30_encoding.md R91, R92), their fields, the operation map (R100), the
decoder (R102, total, rejecting by name) and the encoder (40_encoder.md R122). -/

namespace Sys2Proof

/-! ## Fields of CMDWORD (R91) -/

/-- DATA, bits 7:0. -/
def cmdData (w : Word) : Byte := w.extractLsb' 0 8

/-- MASTER_ADDRESS, bits 23:8. -/
def cmdMasterAddress (w : Word) : BitVec 16 := w.extractLsb' 8 16

/-- The low byte of MASTER_ADDRESS, bits 15:8. -/
def cmdMasterLow (w : Word) : Byte := w.extractLsb' 8 8

/-- The high byte of MASTER_ADDRESS, bits 23:16. -/
def cmdMasterHigh (w : Word) : Byte := w.extractLsb' 16 8

/-- MASTER_ADDRESS_FORMAT, bit 24. -/
def cmdMaf (w : Word) : Bool := w.getLsbD 24

/-- DEVICE_ADDRESS, bits 30:25. -/
def cmdDeviceAddress (w : Word) : BitVec 6 := w.extractLsb' 25 6

/-- DIRECTION, bit 31: 1 is Write (R36, R124). -/
def cmdDirection (w : Word) : Direction := if w.getLsbD 31 then .write else .read

/-- CMDWORD as the OR of its five fields, each in its place (R38, R125). -/
def composeCmd (dir : Direction) (dev : BitVec 6) (maf : Bool) (master : BitVec 16) (data : Byte) : Word :=
  ((if dir = .write then 1#32 else 0#32) <<< 31) ||| (dev.setWidth 32 <<< 25)
    ||| ((if maf then 1#32 else 0#32) <<< 24) ||| (master.setWidth 32 <<< 8) ||| data.setWidth 32

/-! ## Fields of CSCWORD (R92) -/

/-- ADDR_LSB, bit 0. -/
def cscAddrLsb (w : Word) : Bool := w.getLsbD 0

/-- TIMING_LO, bits 8:1. -/
def cscTimingLo (w : Word) : BitVec 8 := w.extractLsb' 1 8

/-- TIMING_HI, bits 24:9. -/
def cscTimingHi (w : Word) : BitVec 16 := w.extractLsb' 9 16

/-- Bits 28:25, which the source does not describe (R41, R92, R105). -/
def cscReserved (w : Word) : BitVec 4 := w.extractLsb' 25 4

/-- The three flags NAK, RIP and LHE, bits 31:29 (R92). -/
def cscFlagBits (w : Word) : BitVec 3 := w.extractLsb' 29 3

/-- The CSC value of an accepted operation (R126): address LSB and timing, bits 31:25 zero (log 23). -/
def composeCsc (lo : BitVec 8) (hi : BitVec 16) (lsb : Bool) : Word :=
  (if lsb then 1#32 else 0#32) ||| (lo.setWidth 32 <<< 1) ||| (hi.setWidth 32 <<< 9)

/-! ## Operand assembly (R94 to R97) -/

/-- DEVICE_ADDRESS of a target address: its bits 6:1 (R94, R123). -/
def addrDevice (a : TargetAddr) : BitVec 6 := a.extractLsb' 1 6

/-- ADDR_LSB of a target address: its bit 0 (R94). -/
def addrLsb (a : TargetAddr) : Bool := a.getLsbD 0

/-- The target address that DEVICE_ADDRESS and ADDR_LSB name together (R102, R203). -/
def joinAddr (dev : BitVec 6) (lsb : Bool) : TargetAddr := dev ++ BitVec.ofBool lsb

/-- MASTER_ADDRESS in the plain sub-format: the command byte, zero extended (R95; log 21). -/
def masterPlain (cmd : Byte) : BitVec 16 := cmd.setWidth 16

/-- The low byte of the payload (R96, R97). -/
def payloadLow (p : BitVec 16) : Byte := p.extractLsb' 0 8

/-- The high byte of the payload (R97). -/
def payloadHigh (p : BitVec 16) : Byte := p.extractLsb' 8 8

/-- MASTER_ADDRESS in the packed sub-format: command byte high, low payload byte low (R96). -/
def masterPacked (cmd : Byte) (p : BitVec 16) : BitVec 16 :=
  (cmd.setWidth 16 <<< 8) ||| (payloadLow p).setWidth 16

/-! ## The operation map (R100, R110) -/

/-- The row that a request selects, by `dir` and `width` alone (R100). -/
def Request.instr (r : Request) : Instr :=
  match r.width, r.dir with
  | .byte, .read  => .byteRead r.addr r.cmd r.payload
  | .byte, .write => .byteWrite r.addr r.cmd r.payload
  | .word, .write => .wordWrite r.addr r.cmd r.payload
  | .word, .read  => .wordRead r.addr r.cmd r.payload
  | .other, dir   => .other r.addr dir r.cmd r.payload

/-- The request of a bus operation; INIT and CAPS have none (R100). -/
def Instr.request : Instr → Option Request
  | .byteRead a c p  => some ⟨a, .read, c, .byte, p⟩
  | .byteWrite a c p => some ⟨a, .write, c, .byte, p⟩
  | .wordWrite a c p => some ⟨a, .write, c, .word, p⟩
  | .wordRead a c p  => some ⟨a, .read, c, .word, p⟩
  | .other a d c p   => some ⟨a, d, c, .other, p⟩
  | .init            => none
  | .caps            => none

/-! ## The decoder (R102) -/

/-- Why a pair of words, or a string of bytes, stands for no operation. -/
inductive DecodeError where
  /-- Fewer than the eight bytes of one pair of words. Safe. -/
  | truncated
  /-- DIRECTION = 0 with MAF = 1, a word read (R104 a, U1). Safe. -/
  | reservedWordRead
  /-- MAF = 0 with MASTER_ADDRESS bits 23:16 not all zero (R104 b, U2). Safe. -/
  | reservedMasterHigh
  /-- A bit of CSC 28:25 set (R105, U4). Safe. -/
  | reservedClockBits
  /-- A flag bit of CSC 31:29 set (R105, U5). Safe. -/
  | clockFlagBits
  deriving DecidableEq, Repr

/-- The reserved pattern of R104 that a CMDWORD falls under, if any; pattern (c) of R104 is accepted. -/
def reservedCommand (w : Word) : Option DecodeError :=
  if cmdMaf w then
    if cmdDirection w = .read then some .reservedWordRead else none
  else if cmdMasterHigh w = 0#8 then none else some .reservedMasterHigh

/-- The reserved pattern of R105 that a CSCWORD falls under, if any. -/
def reservedClock (w : Word) : Option DecodeError :=
  if cscReserved w ≠ 0#4 then some .reservedClockBits
  else if cscFlagBits w ≠ 0#3 then some .clockFlagBits
  else none

/-- R102 on a CMDWORD without a reserved pattern: the operation that the engine is asked for (R203). -/
def readCommand (c : Word) (lsb : Bool) : Instr :=
  let addr := joinAddr (cmdDeviceAddress c) lsb
  if cmdMaf c then .wordWrite addr (cmdMasterHigh c) (cmdData c ++ cmdMasterLow c)
  else if cmdDirection c = .write then .byteWrite addr (cmdMasterLow c) ((cmdData c).setWidth 16)
  else .byteRead addr (cmdMasterLow c) 0

/-- R102: the operation that the pair (CMDWORD, CSCWORD) stands for. The timing bits of the CSCWORD carry no operand and
are not looked at (log 5). -/
def decodeWords (c k : Word) : Except DecodeError Instr :=
  match reservedClock k, reservedCommand c with
  | some e, _    => .error e
  | none, some e => .error e
  | none, none   => .ok (readCommand c (cscAddrLsb k))

/-- Four bytes as a word, the first byte least significant (R65; log 4). -/
def wordOfBytes (b0 b1 b2 b3 : Byte) : Word := b3 ++ b2 ++ b1 ++ b0

/-- The operation at the head of a string of bytes, and the bytes after it: CMDWORD, then CSCWORD (log 4). -/
def decode : List Byte → Except DecodeError (Instr × List Byte)
  | b0 :: b1 :: b2 :: b3 :: b4 :: b5 :: b6 :: b7 :: rest =>
    match decodeWords (wordOfBytes b0 b1 b2 b3) (wordOfBytes b4 b5 b6 b7) with
    | .ok i    => .ok (i, rest)
    | .error e => .error e
  | _ => .error .truncated

/-! ## The encoder (R120 to R133) -/

/-- The Transaction Encoder (R122): the pair (CMD_VAL, CSC_VAL), or `none` for UnsupportedOperation. It reads the request
and the two timing parameters and nothing else (R121). -/
def encodeRequest (lo : BitVec 8) (hi : BitVec 16) (r : Request) : Option (Word × Word) :=
  match r.width, r.dir with
  | .other, _ => none
  | .word, .read => none
  | .word, .write =>
    some (composeCmd .write (addrDevice r.addr) true (masterPacked r.cmd r.payload) (payloadHigh r.payload),
      composeCsc lo hi (addrLsb r.addr))
  | .byte, .write =>
    some (composeCmd .write (addrDevice r.addr) false (masterPlain r.cmd) (payloadLow r.payload),
      composeCsc lo hi (addrLsb r.addr))
  | .byte, .read =>
    some (composeCmd .read (addrDevice r.addr) false (masterPlain r.cmd) 0#8,
      composeCsc lo hi (addrLsb r.addr))

/-- The two words of an operation (CMDWORD, CSCWORD); WORD_READ, OTHER, INIT and CAPS have none (R100). -/
def encode (lo : BitVec 8) (hi : BitVec 16) (i : Instr) : Option (Word × Word) :=
  match i.request with
  | some r => encodeRequest lo hi r
  | none   => none

/-- A word as its four bytes, least significant first (R65; log 4). -/
def bytesOfWord (w : Word) : List Byte :=
  [w.extractLsb' 0 8, w.extractLsb' 8 8, w.extractLsb' 16 8, w.extractLsb' 24 8]

/-- The eight bytes of a pair of words, as `decode` reads them. -/
def bytesOfPair (p : Word × Word) : List Byte := bytesOfWord p.1 ++ bytesOfWord p.2

/-! ## The opcode table (R101) -/

/-- A row of R101: a word belongs to the row when `w &&& mask = pattern`. -/
structure OpcodeRow where
  mnemonic : String
  pattern  : Word
  mask     : Word
  deriving DecidableEq, Repr

/-- The three rows of R101. -/
def opcodeRows : List OpcodeRow :=
  [⟨"BYTE_READ", 0x00000000#32, 0x81FF00FF#32⟩,
   ⟨"BYTE_WRITE", 0x80000000#32, 0x81FF0000#32⟩,
   ⟨"WORD_WRITE", 0x81000000#32, 0x81000000#32⟩]

/-- A word belongs to a row of R101. -/
def OpcodeRow.holds (row : OpcodeRow) (w : Word) : Bool := w &&& row.mask == row.pattern

/-- Some word belongs to both rows: their patterns agree on the bits both masks fix. -/
def OpcodeRow.overlaps (a b : OpcodeRow) : Bool := (a.pattern ^^^ b.pattern) &&& a.mask &&& b.mask == 0#32

/-- The row's mnemonic of an operation, as spec/opcode_table.json spells it. -/
def Instr.mnemonic : Instr → String
  | .byteRead _ _ _  => "BYTE_READ"
  | .byteWrite _ _ _ => "BYTE_WRITE"
  | .wordWrite _ _ _ => "WORD_WRITE"
  | .wordRead _ _ _  => "WORD_READ"
  | .other _ _ _ _   => "OTHER"
  | .init            => "INIT"
  | .caps            => "CAPS"

/-! ## What the HOST presents -/

/-- One line of a program (R109): INIT, CAPS, or one call of `execute` (R185), whose request is given as the record REQ
(R93) or by its two encoded words (log 4). -/
inductive HostLine where
  | init
  | caps
  | execute (req : Request)
  | encoded (cmdWord cscWord : Word)
  deriving DecidableEq, Repr

/-- The operation of a line (R110, R102). -/
def HostLine.decode : HostLine → Except DecodeError Instr
  | .init        => .ok .init
  | .caps        => .ok .caps
  | .execute req => .ok req.instr
  | .encoded c k => decodeWords c k

/-- The line that presents an operation. -/
def Instr.line (i : Instr) : HostLine :=
  match i with
  | .init => .init
  | .caps => .caps
  | .byteRead a c p  => .execute ⟨a, .read, c, .byte, p⟩
  | .byteWrite a c p => .execute ⟨a, .write, c, .byte, p⟩
  | .wordWrite a c p => .execute ⟨a, .write, c, .word, p⟩
  | .wordRead a c p  => .execute ⟨a, .read, c, .word, p⟩
  | .other a d c p   => .execute ⟨a, d, c, .other, p⟩

/-- CMDWORD of an instruction whose bits, as spec/opcode_table.json numbers them, are `w`; bits from `nbits` up are 0. -/
def tableCmdWord (nbits w : Nat) : Word := BitVec.ofNat 32 (w % 2 ^ nbits)

/-- CSCWORD of the same instruction: bits 63:32. The table gives the companion no bits, so for `nbits = 32` it is 0. -/
def tableCscWord (nbits w : Nat) : Word := BitVec.ofNat 32 (w % 2 ^ nbits / 2 ^ 32)

/-- The operation the decoder reads from an instruction whose bits are `w`: its words laid out as bytes, and decoded. -/
def decodeTableWord (nbits w : Nat) : Option Instr :=
  match decode (bytesOfPair (tableCmdWord nbits w, tableCscWord nbits w)) with
  | .ok (i, _) => some i
  | .error _   => none

end Sys2Proof
end

