-- ==== Sys2Proof/Machine/State.lean ====
section
/-! DEFINITION. The state of one device instance and its CORE (10_state.md R20 to R49), the ways a step can stop, and the
state right after reset (70_reset_and_hazards.md R255 to R257). -/

namespace Sys2Proof.Machine

/-- SEQ (R26), which with POLL_COUNT takes the place of a program counter. -/
inductive Seq where
  | idle
  | polling
  | completed
  | timedOut
  deriving DecidableEq, Repr

/-- TransferResult, the content of RES (R24, R225): Ok with a byte for a read and without one for a write, or one of the
three error kinds. -/
inductive TransferResult where
  | ok (data : Option Byte)
  | busRecoveryFailed
  | deviceNotResponding
  | unsupportedOperation
  deriving DecidableEq, Repr

/-- A name that the capability set can hold (R192). -/
inductive Capability where
  | byteRead
  | byteWrite
  | wordWrite
  deriving DecidableEq, Repr

/-- A set of the three names (R193), by what it holds: two sets with the same names are the same set. -/
structure CapabilitySet where
  byteRead  : Bool
  byteWrite : Bool
  wordWrite : Bool
  deriving DecidableEq, Repr

/-- What a line returns to the HOST: a TransferResult (R194) or the capability set (R192). -/
inductive Reply where
  | result (r : TransferResult)
  | capabilities (set : CapabilitySet)
  deriving DecidableEq, Repr

/-- The transaction in flight, as sampled at the trigger (R47, R203, R205). -/
structure Inflight where
  cmd      : Word
  addrLsb  : Bool
  timingLo : BitVec 8
  timingHi : BitVec 16
  deriving DecidableEq, Repr

/-- Every piece of state of R49, the parameters of R9 and R10, and the ports to HOST and ENV. -/
structure State where
  /-- The configuration; no step writes it. -/
  cfg         : Config
  /-- OP (R20 to R23); `none` when it holds nothing. -/
  op          : Option Request
  /-- CMD_VAL (R25); `none` when it holds nothing. -/
  cmdVal      : Option Word
  /-- CSC_VAL (R25); `none` when it holds nothing. -/
  cscVal      : Option Word
  /-- SEQ (R26, R28). -/
  seq         : Seq
  /-- POLL_COUNT (R27). -/
  pollCount   : Nat
  /-- LAST_STATUS (R29); `none` when it holds nothing. -/
  lastStatus  : Option Word
  /-- RES (R24); `none` before the first result. -/
  res         : Option TransferResult
  /-- INITIALISED (R30). -/
  initialised : Bool
  /-- CMD, offset 0x0C8 (R36 to R39). -/
  cmd         : Word
  /-- PRESCALE, offset 0x0CC (R40). -/
  prescale    : Word
  /-- CSC bits 28:0, offset 0x0D0 (R41, R43, R201): ADDR_LSB, TIMING_LO, TIMING_HI and bits 28:25, as last written. -/
  cscConfig   : BitVec 29
  /-- CSC bits 31:29 (R32, R33, R201): NAK, RIP and LHE, as last observed or free (log 12). -/
  cscFlags    : BitVec 3
  /-- BFT, offset 0x0D4 (R44). -/
  bft         : Word
  /-- INFLIGHT (R47, R205). -/
  inflight    : Option Inflight
  /-- The register access trace (R16), oldest event first. -/
  trace       : List Event
  /-- The lines the HOST will still present (R109; log 3). The model's own port. -/
  program     : List HostLine
  /-- What the last line returned to the HOST (R192, R194; log 33). The model's own port. -/
  reply       : Option Reply
  /-- Answers ENV has already chosen for the coming reads, next one first (R210, R212; log 11). The model's own. -/
  envScript   : List Word
  /-- How many choices ENV has made (the choice `c` of R210; log 11). The model's own. -/
  envDraws    : Nat
  deriving DecidableEq, Repr

/-- The whole register CSC: its flags above its configuration (R41). -/
def State.csc (s : State) : Word := s.cscFlags ++ s.cscConfig

/-- The ways a step can stop with a fault: none. The block has no trap and its one loop is bounded
(93_implementation_defined.md, head: "`fault` and `stuck` (not used by this spec ...)"; log 20). -/
inductive Fault where
  deriving DecidableEq, Repr

/-- The ways a step, or a single access of the register window, is refused. -/
inductive Refusal where
  /-- Raised by `exec` for an operation that has no meaning yet. Safe. -/
  | notModelled (mnemonic : String)
  /-- Raised by every EXECUTE before INIT, of whatever shape (R188, U17; log 26). Safe. -/
  | beforeBringUp
  /-- Raised by INIT after INIT (R191, U18; log 26). Safe. -/
  | secondInit
  /-- Raised by an EXECUTE while SEQ is not IDLE (R189, U19; log 27). Safe. -/
  | operationInProgress
  /-- Raised by `resume` when SEQ is not IDLE and OP holds nothing: no rule gives such a state, no run reaches it
  (log 37). Safe. -/
  | noOperandLatched
  /-- Raised by a line, or by a write of CMD or CSC, with a reserved pattern (R104, R105, R202, R203; log 39). Safe. -/
  | reservedEncoding (why : DecodeError)
  /-- Raised by a write of PRESCALE after the first, INIT's own write included (R40, R191, R206, U12; logs 18, 26). Safe. -/
  | prescaleRewrite
  /-- Raised by a write of PRESCALE with another value than PRESCALE_400K: one that is neither constant (R206), or
  PRESCALE_100K, which no operation writes (R191, U12; log 17). Safe. -/
  | prescaleValue
  /-- Raised by a read of CMD other than after a read transaction has resolved (R39, R207, R271, U8; log 19). Safe. -/
  | commandReadEarly
  /-- Raised by a read of PRESCALE (R209, U13; log 39). Safe. -/
  | prescaleRead
  /-- Raised by any access of BFT (R209, U14; log 40). Safe. -/
  | busFreeTimeAccess
  /-- Raised by an access of any other offset (R63, R209, U15; log 39). Safe. -/
  | otherOffset
  /-- Raised by an access of another width than 32 bits (R65, R67, U16; log 39). Safe. -/
  | accessWidth
  /-- Raised by a misaligned access (R66, U16; log 39). Safe. -/
  | accessMisaligned
  deriving DecidableEq, Repr

/-- The machine right after reset: the device attached, its window mapped, before INIT (R255 to R258; logs 6, 9, 10). -/
def State.reset : State where
  cfg         := Config.device
  op          := none
  cmdVal      := none
  cscVal      := none
  seq         := .idle
  pollCount   := 0
  lastStatus  := none
  res         := none
  initialised := false
  cmd         := Config.resetCmd
  prescale    := Config.resetPrescale
  cscConfig   := Config.resetCsc.extractLsb' 0 29
  cscFlags    := Config.resetCsc.extractLsb' 29 3
  bft         := Config.resetBft
  inflight    := none
  trace       := []
  program     := []
  reply       := none
  envScript   := []
  envDraws    := 0

end Sys2Proof.Machine
end

