-- ==== Sys2Proof/Machine/Flags.lean ====
section
/-! DEFINITION. The three status flags of CSC (10_state.md R32 to R34, R41), the poll loop's exit test (41_poller.md R154)
and the classification of a timeout by the flags (42_classifier.md R174 to R178). The CORE has no flags of its own (R32). -/

namespace Sys2Proof.Machine

/-- NOT_ACKNOWLEDGED, bit 31 (R41). -/
def flagNak (w : Word) : Bool := w.getLsbD 31

/-- RECEIVE_IN_PROGRESS, bit 30 (R41). -/
def flagRip (w : Word) : Bool := w.getLsbD 30

/-- LINE_HELD_ERROR, bit 29 (R41). -/
def flagLhe (w : Word) : Bool := w.getLsbD 29

/-- The exit test of R154: RIP and NAK both clear. LHE has no part in it (log 28). -/
def resolved (w : Word) : Bool := !flagRip w && !flagNak w

/-- The result of a timeout with last status `w`: LHE or RIP gives BusRecoveryFailed (R174), which beats NAK (R176); NAK
alone gives DeviceNotResponding (R175); the unreachable rest gives BusRecoveryFailed (R177; log 28). -/
def timeoutResult (w : Word) : TransferResult :=
  if flagLhe w || flagRip w then .busRecoveryFailed
  else if flagNak w then .deviceNotResponding
  else .busRecoveryFailed

/-- The optional numbers of the result kinds (R228; log 38). -/
def TransferResult.code : TransferResult → Nat
  | .ok _                 => 0
  | .unsupportedOperation => 1
  | .busRecoveryFailed    => 2
  | .deviceNotResponding  => 3

/-- RES.data (R24). -/
def TransferResult.data : TransferResult → Option Byte
  | .ok d                 => d
  | .unsupportedOperation => none
  | .busRecoveryFailed    => none
  | .deviceNotResponding  => none

/-- PollOutcome: {Completed, TimedOut(last_status)} (R18, R29, R150). -/
inductive PollOutcome where
  | completed
  | timedOut (lastStatus : Word)
  deriving DecidableEq, Repr

/-- The PollOutcome of a state whose poll loop has ended (R150). -/
def State.pollOutcome (s : State) : Option PollOutcome :=
  match s.seq, s.lastStatus with
  | .completed, _     => some .completed
  | .timedOut, some w => some (.timedOut w)
  | .timedOut, none   => none
  | .idle, _          => none
  | .polling, _       => none

end Sys2Proof.Machine
end

