-- ==== Sys2Proof/Machine/Operands.lean ====
section
/-! DEFINITION. The operands on the device side (44_i2c_master.md R203): what the engine takes from CMD and CSC for the
transaction it starts; and the bus speed that PRESCALE selects (R206). The operands on the CORE side, and how they are
assembled into words, are in Sys2Proof/Decode.lean. -/

namespace Sys2Proof.Machine

/-- What the engine samples at a trigger with word `v` while CSC holds `config` in its bits 28:0 (R203, R204). -/
def sampleInflight (v : Word) (config : BitVec 29) : Inflight where
  cmd      := v
  addrLsb  := config.getLsbD 0
  timingLo := config.extractLsb' 1 8
  timingHi := config.extractLsb' 9 16

/-- The 7-bit target address of a transaction: {v[30:25], ADDR_LSB} (R203). -/
def Inflight.target (t : Inflight) : TargetAddr := joinAddr (cmdDeviceAddress t.cmd) t.addrLsb

/-- The direction of a transaction: v[31] (R203). -/
def Inflight.direction (t : Inflight) : Direction := cmdDirection t.cmd

/-- The command byte of a transaction: v[15:8] with MAF = 0, v[23:16] with MAF = 1 (R203). -/
def Inflight.command (t : Inflight) : Byte := if cmdMaf t.cmd then cmdMasterHigh t.cmd else cmdMasterLow t.cmd

/-- The payload of a transaction: the data byte v[7:0] with MAF = 0; low byte v[15:8] and high byte v[7:0] with MAF = 1
(R203). -/
def Inflight.payload (t : Inflight) : BitVec 16 :=
  if cmdMaf t.cmd then cmdData t.cmd ++ cmdMasterLow t.cmd else (cmdData t.cmd).setWidth 16

/-- The bus speed in kHz that the value of PRESCALE selects (R206, R274); no rule depends on it. -/
def State.busSpeedKHz (s : State) : Option Nat :=
  if s.prescale = s.cfg.prescale400k then some 400
  else if s.prescale = s.cfg.prescale100k then some 100
  else none

end Sys2Proof.Machine
end

