-- ==== Sys2Proof/Machine/Ops.lean ====
section
/-! DEFINITION. The shared operations: the environment's answers (44_i2c_master.md R210), the effect of each register
access (R202 to R208), the register window with everything it refuses (20_memory.md R60 to R67), and the one way an
operation ends, an error included (60_exceptions.md R233). -/

namespace Sys2Proof.Machine

/-! ## Offsets of the register window (R62) -/

/-- CMD_OFF. -/
abbrev cmdOff : Nat := 0x0C8

/-- PRESCALE_OFF. -/
abbrev prescaleOff : Nat := 0x0CC

/-- CSC_OFF. -/
abbrev cscOff : Nat := 0x0D0

/-- BFT_OFF. -/
abbrev bftOff : Nat := 0x0D4

/-! ## The environment (R210) -/

/-- A register access, as opposed to a sleep (R16). -/
def isAccess : Event → Bool
  | .write _ _ => true
  | .read _ _  => true
  | .sleep _ _ => false

/-- A write at offset `off`. -/
def isWriteAt (off : Nat) : Event → Bool
  | .write o _ => o == off
  | .read _ _  => false
  | .sleep _ _ => false

/-- The history H of R210: all register accesses so far, with their values, in order. -/
def State.history (s : State) : List Event := s.trace.filter isAccess

/-- ENV's answer to the next read, made at offset `off`: any 32-bit value (R207, R208, R210). It is the next answer of
`envScript`, or the free value `ENV.read(H, off, c)` when none is listed (log 11). -/
def State.envAnswer (s : State) (off : Nat) : Word :=
  match s.envScript with
  | a :: _ => a
  | []     => Config.envRead s.history off s.envDraws

/-! ## Effects of the accesses (R202 to R208) -/

/-- `write32(CSC_OFF, v)`: the device takes ADDR_LSB and the timing fields (R202); the flags are left to ENV (log 12). -/
def writeCsc (v : Word) (s : State) : State :=
  { s with
    cscConfig := v.extractLsb' 0 29
    cscFlags  := Config.envFlags s.history s.envDraws
    envDraws  := s.envDraws + 1
    trace     := s.trace ++ [.write cscOff v] }

/-- `write32(CMD_OFF, v)`, the trigger: the device stores `v` and starts the transaction that `v` and the configuration in
CSC describe (R203, R204; log 32). -/
def writeCmd (v : Word) (s : State) : State :=
  { s with
    cmd      := v
    inflight := some (sampleInflight v s.cscConfig)
    trace    := s.trace ++ [.write cmdOff v] }

/-- `write32(PRESCALE_OFF, v)`: the device takes `v` as its bus-speed constant (R206). -/
def writePrescale (v : Word) (s : State) : State :=
  { s with
    prescale := v
    trace    := s.trace ++ [.write prescaleOff v] }

/-- `read32(CSC_OFF)`: bits 31:29 of the answer are the flags the hardware holds at that moment (R208); RIP and NAK both
clear is the one sight the CORE has of a transaction resolved (R205; log 13). What changes here is the hardware's own
doing, not the read's (R69; log 15). -/
def readCsc (s : State) : State :=
  { s with
    cscFlags  := cscFlagBits (s.envAnswer cscOff)
    inflight  := if resolved (s.envAnswer cscOff) then none else s.inflight
    envScript := s.envScript.tail
    envDraws  := s.envDraws + 1
    trace     := s.trace ++ [.read cscOff (s.envAnswer cscOff)] }

/-- `read32(CMD_OFF)`: bits 7:0 of the answer are the DATA byte that the hardware has filled in (R39, R207; log 14). -/
def readCmd (s : State) : State :=
  { s with
    cmd       := s.cmd.extractLsb' 8 24 ++ cmdData (s.envAnswer cmdOff)
    envScript := s.envScript.tail
    envDraws  := s.envDraws + 1
    trace     := s.trace ++ [.read cmdOff (s.envAnswer cmdOff)] }

/-- `sleep(SLEEP_MIN_US, SLEEP_MAX_US)`: no register access, no state changed but the trace (R15, R156; log 24). -/
def sleep (s : State) : State :=
  { s with trace := s.trace ++ [.sleep s.cfg.sleepMinUs s.cfg.sleepMaxUs] }

/-- What may happen to INFLIGHT after the last poll of an operation that timed out: the hardware may resolve it unseen or
not (R205, R267; log 13). DESIGN CHOICE (log 13): also where a BYTE_READ is resolved unseen, CMD keeps the value that the
operation wrote, as R233 says of a failed operation, although R39 and R207 have DATA filled by the hardware on completion. -/
def settleInflight (s : State) : State :=
  { s with
    inflight := if Config.envResolvesUnseen s.history s.envDraws then none else s.inflight
    envDraws := s.envDraws + 1 }

/-! ## The register window (R60 to R67) -/

/-- The four registers of R62. -/
inductive Reg where
  | cmd
  | prescale
  | csc
  | bft
  deriving DecidableEq, Repr

/-- The register at an offset of the window (R62). -/
def regAt (off : Nat) : Option Reg :=
  if off = cmdOff then some .cmd
  else if off = prescaleOff then some .prescale
  else if off = cscOff then some .csc
  else if off = bftOff then some .bft
  else none

/-- The register that an access of `width` bytes at address `addr` reaches, or why it is refused (R63, R65, R66, R67). -/
def windowReg (cfg : Config) (addr width : Nat) : Except Refusal Reg :=
  if width ≠ 4 then .error .accessWidth
  else if addr % 4 ≠ 0 then .error .accessMisaligned
  else if addr < cfg.base then .error .otherOffset
  else
    match regAt (addr - cfg.base) with
    | some r => .ok r
    | none   => .error .otherOffset

/-- PRESCALE has been written (R40, R269): by bring-up, or by any write in the trace (log 18). -/
def State.prescaleWritten (s : State) : Bool := s.initialised || s.trace.any (isWriteAt prescaleOff)

/-- What the accesses so far show of the latest transaction: the word that triggered it, and whether a poll since then has
shown it resolved (R19: a poll that returned bits 31 and 30 both clear). -/
structure Observed where
  word     : Word
  resolved : Bool
  deriving DecidableEq, Repr

/-- One event more: a trigger begins a transaction, a resolving poll resolves it, and no other event tells anything. -/
def observe (seen : Option Observed) : Event → Option Observed
  | .write off v =>
    if off = cmdOff then some { word := v, resolved := false } else seen
  | .read off v =>
    if off = cscOff ∧ resolved v = true then seen.map (fun o => { o with resolved := true }) else seen
  | .sleep _ _ => seen

/-- What the whole trace shows of the latest transaction; `none` before the first trigger. -/
def State.observed (s : State) : Option Observed := s.trace.foldl observe none

/-- A read transaction has resolved (R19, R39, R207, R271): the latest trigger was of a read, and a poll after it has shown RIP
and NAK clear (log 19). -/
def State.readResolved (s : State) : Bool :=
  match s.observed with
  | some o => o.resolved && decide (cmdDirection o.word = .read)
  | none   => false

/-- `MemWrite(addr, width, v)` on the window (R14), with the writes that a model refuses (R40, R104, R105, R191, R202, R203,
R206, R209; U12; logs 17, 18 and 39). -/
def memWrite (addr width : Nat) (v : Word) (s : State) : Except Refusal State :=
  match windowReg s.cfg addr width with
  | .error r => .error r
  | .ok .csc =>
    match reservedClock v with
    | some e => .error (.reservedEncoding e)
    | none   => .ok (writeCsc v s)
  | .ok .cmd =>
    match reservedCommand v with
    | some e => .error (.reservedEncoding e)
    | none   => .ok (writeCmd v s)
  | .ok .prescale =>
    if s.prescaleWritten then .error .prescaleRewrite
    else if v = s.cfg.prescale400k then .ok (writePrescale v s)
    else .error .prescaleValue
  | .ok .bft => .error .busFreeTimeAccess

/-- `MemRead(addr, width)` on the window (R14): the value and the state after it, with the reads that a model refuses
(R209; R39, R207, R271 with U8; logs 19 and 39). -/
def memRead (addr width : Nat) (s : State) : Except Refusal (Word × State) :=
  match windowReg s.cfg addr width with
  | .error r      => .error r
  | .ok .csc      => .ok (s.envAnswer cscOff, readCsc s)
  | .ok .cmd      => if s.readResolved then .ok (s.envAnswer cmdOff, readCmd s) else .error .commandReadEarly
  | .ok .prescale => .error .prescaleRead
  | .ok .bft      => .error .busFreeTimeAccess

/-- `write32(off, v)`, which is `MemWrite(BASE + off, 4, v)` (R14). -/
def write32 (off : Nat) (v : Word) (s : State) : Except Refusal State := memWrite (s.cfg.base + off) 4 v s

/-- `read32(off)`, which is `MemRead(BASE + off, 4)` (R14). -/
def read32 (off : Nat) (s : State) : Except Refusal (Word × State) := memRead (s.cfg.base + off) 4 s

/-! ## The records of one operation -/

/-- The request is latched in OP and the encoder's two values in CMD_VAL and CSC_VAL (R22, R25). -/
def latch (op : Request) (cmdVal cscVal : Word) (s : State) : State :=
  { s with op := some op, cmdVal := some cmdVal, cscVal := some cscVal }

/-- RES is written, once per operation, and returned to the HOST (R24, R194; log 33). For a request that the encoder
rejects this is all that happens (R132, R133, R226). -/
def deliver (r : TransferResult) (s : State) : State :=
  { s with res := some r, reply := some (.result r) }

/-- The end of an operation that was started, taken by Ok and by both timeout errors alike: RES is delivered, SEQ is IDLE,
OP and the transient values are discarded (R22, R24, R25, R29, R194). With an error kind this is the error entry of R233:
nothing is saved, no mode changes, no register is accessed (log 29). There is no return from it (R235). -/
def finish (r : TransferResult) (s : State) : State :=
  { deliver r s with
    seq        := .idle
    op         := none
    cmdVal     := none
    cscVal     := none
    lastStatus := none }

end Sys2Proof.Machine
end

