-- ==== Sys2Proof/Machine/FrontEnd.lean ====
section
/-! DEFINITION. The bring-up write INIT and the capability query CAPS (43_frontend.md R190 to R193). -/

namespace Sys2Proof.Machine

/-- The effect of INIT (R190): one write of PRESCALE_400K and INITIALISED <- true; it returns no result (logs 30 and 33). -/
def bringUp (s : State) : State :=
  { writePrescale s.cfg.prescale400k s with initialised := true, reply := none }

/-- INIT (R190). A second one is refused, and so is one that would write PRESCALE a second time, after a direct write on the
window (R191, U12, U18; logs 18 and 26). -/
def execInit (s : State) : Host.Outcome State Fault Refusal :=
  if s.initialised = true then .refused .secondInit
  else if s.prescaleWritten = true then .refused .prescaleRewrite
  else .next (bringUp s)

/-- A name is in the set (R193). -/
def CapabilitySet.has (set : CapabilitySet) : Capability → Bool
  | .byteRead  => set.byteRead
  | .byteWrite => set.byteWrite
  | .wordWrite => set.wordWrite

/-- The capability set {ByteRead, ByteWrite, WordWrite} (R192). -/
def capabilitySet : CapabilitySet := { byteRead := true, byteWrite := true, wordWrite := true }

/-- The bit of a name in the optional numeric form (R193; log 38). -/
def Capability.bit : Capability → Nat
  | .byteRead  => 0
  | .byteWrite => 1
  | .wordWrite => 2

/-- What a name adds to the numeric form of a set: its bit, if the set holds it. -/
def CapabilitySet.bitOf (set : CapabilitySet) (name : Capability) : BitVec 3 :=
  if set.has name then 1#3 <<< name.bit else 0#3

/-- The optional numeric form of a set (R193; log 38). -/
def CapabilitySet.code (set : CapabilitySet) : BitVec 3 :=
  set.bitOf .byteRead ||| set.bitOf .byteWrite ||| set.bitOf .wordWrite

/-- The name that a row of the operation map has in the descriptor; WORD_READ and OTHER have none, and INIT and CAPS are no
bus operations (R193). -/
def capabilityOf : Instr → Option Capability
  | .byteRead _ _ _  => some .byteRead
  | .byteWrite _ _ _ => some .byteWrite
  | .wordWrite _ _ _ => some .wordWrite
  | .wordRead _ _ _  => none
  | .other _ _ _ _   => none
  | .init            => none
  | .caps            => none

/-- CAPS (R192): the set is returned, nothing else changes (log 33). -/
def execCaps (s : State) : Host.Outcome State Fault Refusal :=
  .next { s with reply := some (.capabilities capabilitySet) }

end Sys2Proof.Machine
end

