-- ==== Sys2Proof/Machine/Poller.lean ====
section
/-! DEFINITION. The Completion Poller (41_poller.md R150 to R163). -/

namespace Sys2Proof.Machine

/-- SEQ <- POLLING and POLL_COUNT <- 0 (R152). -/
def enterPolling (s : State) : State := { s with seq := .polling, pollCount := 0 }

/-- The start of an accepted operation: the clock-control write, then the trigger, then POLLING (R151, R152, R160 row 1). -/
def startTransaction (op : Request) (cmdVal cscVal : Word) (s : State) : State :=
  enterPolling (writeCmd cmdVal (writeCsc cscVal (latch op cmdVal cscVal s)))

/-- LAST_STATUS <- the answer, POLL_COUNT <- POLL_COUNT + 1 (R153). -/
def countPoll (status : Word) (s : State) : State :=
  { s with lastStatus := some status, pollCount := s.pollCount + 1 }

/-- SEQ <- q. -/
def setSeq (q : Seq) (s : State) : State := { s with seq := q }

/-- One iteration of the loop: poll, exit test, sleep, budget, in that order (R153 to R157, R160 rows 2 to 4; logs 8 and
24). -/
def pollOnce (s : State) : State :=
  if resolved (s.envAnswer cscOff) then setSeq .completed (countPoll (s.envAnswer cscOff) (readCsc s))
  else if s.cfg.pollBudget ≤ s.pollCount + 1 then setSeq .timedOut (sleep (countPoll (s.envAnswer cscOff) (readCsc s)))
  else sleep (countPoll (s.envAnswer cscOff) (readCsc s))

/-- The poll loop (R159), with `n` iterations at most after the first. -/
def pollLoop : Nat → State → State
  | 0, s     => pollOnce s
  | n + 1, s => if (pollOnce s).seq = .polling then pollLoop n (pollOnce s) else pollOnce s

/-- The whole stage, `poll(CMD_VAL, CSC_VAL)` of R159. -/
def poll (op : Request) (cmdVal cscVal : Word) (s : State) : State :=
  pollLoop (s.cfg.pollBudget - 1) (startTransaction op cmdVal cscVal s)

end Sys2Proof.Machine
end

