-- ==== Sys2Proof/Machine/Classifier.lean ====
section
/-! DEFINITION. The Outcome Classifier (42_classifier.md R170 to R182). -/

namespace Sys2Proof.Machine

/-- `classify(SEQ, LAST_STATUS, OP.dir)` (R180): after COMPLETED a read fetches DATA from CMD (R172) and a write returns no
data (R173); after TIMEDOUT the last status decides and no register is accessed (R174, R175, R179). With SEQ at IDLE or
POLLING there is no outcome to classify and nothing happens. -/
def classify (dir : Direction) (s : State) : State :=
  match s.seq with
  | .completed =>
    match dir with
    | .read  => finish (.ok (some (cmdData (s.envAnswer cmdOff)))) (readCmd s)
    | .write => finish (.ok none) s
  | .timedOut => finish (timeoutResult (s.lastStatus.getD 0#32)) (settleInflight s)
  | .idle     => s
  | .polling  => s

/-- One transition of an operation in progress (R160 rows 2 to 6): a poll in POLLING, the classification in COMPLETED and
TIMEDOUT. In IDLE there is none. -/
def advance (dir : Direction) (s : State) : State :=
  match s.seq with
  | .idle      => s
  | .polling   => pollOnce s
  | .completed => classify dir s
  | .timedOut  => classify dir s

/-- The next transition of the operation whose operands OP holds (log 1). -/
def resume (s : State) : Host.Outcome State Fault Refusal :=
  match s.op with
  | some op => .next (advance op.dir s)
  | none    => .refused .noOperandLatched

end Sys2Proof.Machine
end

