-- ==== Sys2Proof/Machine/Transfer.lean ====
section
/-! DEFINITION. EXECUTE (43_frontend.md R185 to R189, R194) and the five bus operations that are calls of it (30_encoding.md
R100). -/

namespace Sys2Proof.Machine

/-- One whole EXECUTE: encoder, poller, classifier (R186; log 1). Before INIT it is refused, whatever the shape (R188; log
26), and so it is while another operation is in progress (R189; log 27). A request that the encoder rejects ends at once
with UnsupportedOperation and no register access (R132, R133). -/
def execute (op : Request) (s : State) : Host.Outcome State Fault Refusal :=
  if s.initialised = false then .refused .beforeBringUp
  else if s.seq ≠ .idle then .refused .operationInProgress
  else
    match encodeRequest s.cfg.timingLo s.cfg.timingHi op with
    | none                  => .next (deliver .unsupportedOperation s)
    | some (cmdVal, cscVal) => .next (classify op.dir (poll op cmdVal cscVal s))

/-- BYTE_READ (R127). -/
def execByteRead (addr : TargetAddr) (cmd : Byte) (payload : BitVec 16) (s : State) : Host.Outcome State Fault Refusal :=
  execute ⟨addr, .read, cmd, .byte, payload⟩ s

/-- BYTE_WRITE (R128). -/
def execByteWrite (addr : TargetAddr) (cmd : Byte) (payload : BitVec 16) (s : State) : Host.Outcome State Fault Refusal :=
  execute ⟨addr, .write, cmd, .byte, payload⟩ s

/-- WORD_WRITE (R129). -/
def execWordWrite (addr : TargetAddr) (cmd : Byte) (payload : BitVec 16) (s : State) : Host.Outcome State Fault Refusal :=
  execute ⟨addr, .write, cmd, .word, payload⟩ s

/-- WORD_READ (R132). -/
def execWordRead (addr : TargetAddr) (cmd : Byte) (payload : BitVec 16) (s : State) : Host.Outcome State Fault Refusal :=
  execute ⟨addr, .read, cmd, .word, payload⟩ s

/-- OTHER (R133). -/
def execOther (addr : TargetAddr) (dir : Direction) (cmd : Byte) (payload : BitVec 16) (s : State) :
    Host.Outcome State Fault Refusal :=
  execute ⟨addr, dir, cmd, .other, payload⟩ s

end Sys2Proof.Machine
end

