-- ==== Sys2Proof/Machine/Dispatch.lean ====
section
/-! DEFINITION. One arm per operation: `exec` runs one whole operation. -/

namespace Sys2Proof.Machine

def exec (i : Instr) (s : State) : Host.Outcome State Fault Refusal :=
  match i with
  | .byteRead addr cmd payload => Sys2Proof.Machine.execByteRead addr cmd payload s
  | .byteWrite addr cmd payload => Sys2Proof.Machine.execByteWrite addr cmd payload s
  | .wordWrite addr cmd payload => Sys2Proof.Machine.execWordWrite addr cmd payload s
  | .wordRead addr cmd payload => Sys2Proof.Machine.execWordRead addr cmd payload s
  | .other addr dir cmd payload => Sys2Proof.Machine.execOther addr dir cmd payload s
  | .init => Sys2Proof.Machine.execInit s
  | .caps => Sys2Proof.Machine.execCaps s

end Sys2Proof.Machine
end

