-- ==== Sys2Proof/Machine/Step.lean ====
section
/-! DEFINITION. One step of the machine: the next line of the HOST run as one whole operation, or the next transition of an
operation in progress. -/

namespace Sys2Proof.Machine

/-- In IDLE the next line of the program is taken off the list, decoded and executed; with no line left the CORE stays in
IDLE (logs 1 and 3). Elsewhere the operation in progress makes its next transition (R160). -/
def step (s : State) : Host.Outcome State Fault Refusal :=
  match s.seq with
  | .idle =>
    match s.program with
    | []           => .next s
    | line :: rest =>
      match line.decode with
      | .ok i    => exec i { s with program := rest }
      | .error e => .refused (.reservedEncoding e)
  | .polling   => resume s
  | .completed => resume s
  | .timedOut  => resume s

/-- `s` with the pair of words `w` presented as the HOST's next line (logs 2 and 4). A request is accepted only after
bring-up (R188) and with SEQ = IDLE (R189), so a machine not yet brought up has INIT's effect (without its write, where
PRESCALE has been written: it is written once, R40), and one in the middle of an operation is put back to IDLE with its
records discarded. -/
def State.withFetchWord (s : State) (nbits w : Nat) : State :=
  { (if s.prescaleWritten then { s with initialised := true } else bringUp s) with
    seq        := .idle
    op         := none
    cmdVal     := none
    cscVal     := none
    lastStatus := none
    program    := .encoded (tableCmdWord nbits w) (tableCscWord nbits w) :: s.program }

end Sys2Proof.Machine
end

