-- ==== Sys2Proof/Safety.lean ====
section
/-! DEFINITION. What counts as a safe run, in the terms that claims use: when the HOST may present a request, the invariant
of the sequencer, the discipline of the access trace, and the complete trace and result of one operation. -/

namespace Sys2Proof.Machine

/-- The HOST may present a request: bring-up is done (R188) and no operation is in progress (R189). -/
def State.ready (s : State) : Bool := s.initialised && decide (s.seq = .idle)

/-! ## The trace of one operation (R163, R187) -/

/-- A read at offset `off`. -/
def isReadAt (off : Nat) : Event → Bool
  | .write _ _ => false
  | .read o _  => o == off
  | .sleep _ _ => false

/-- A sleep (R156). -/
def isSleep : Event → Bool
  | .write _ _ => false
  | .read _ _  => false
  | .sleep _ _ => true

/-- `W(CSC_OFF, CSC_VAL) W(CMD_OFF, CMD_VAL)`. -/
def startEvents (cmdVal cscVal : Word) : List Event := [.write cscOff cscVal, .write cmdOff cmdVal]

/-- The polls that returned `answers`, each one that failed the exit test followed by its sleep. -/
def pollEvents (cfg : Config) : List Word → List Event
  | []           => []
  | a :: answers =>
    if resolved a then .read cscOff a :: pollEvents cfg answers
    else .read cscOff a :: .sleep cfg.sleepMinUs cfg.sleepMaxUs :: pollEvents cfg answers

/-- The least and the greatest total time of the sleeps of a trace, in microseconds (R273). -/
def sleepBounds : List Event → Nat × Nat
  | []                        => (0, 0)
  | .sleep lo hi :: events    => ((sleepBounds events).1 + lo, (sleepBounds events).2 + hi)
  | .read _ _ :: events       => sleepBounds events
  | .write _ _ :: events      => sleepBounds events

/-- An operation of direction `dir` with the words `c`, `k` that resolved at the poll after the polls `failed` (R158, R172,
R173, R187): which events it added, what it returned, what it left in the registers. -/
structure ResolvedAfter (s : State) (dir : Direction) (c k : Word) (failed : List Word) (last : Word) (t : State) : Prop where
  unresolved : ∀ a ∈ failed, resolved a = false
  passes     : resolved last = true
  budget     : failed.length < s.cfg.pollBudget
  pollCount  : t.pollCount = failed.length + 1
  inflight   : t.inflight = none
  clock      : t.cscConfig = k.extractLsb' 0 29
  flags      : t.cscFlags = last.extractLsb' 29 3
  write      : dir = .write →
    t.res = some (.ok none) ∧ t.cmd = c ∧
      t.trace = s.trace ++ startEvents c k ++ pollEvents s.cfg (failed ++ [last])
  read       : dir = .read → ∃ v : Word,
    t.res = some (.ok (some (cmdData v))) ∧ t.cmd = c.extractLsb' 8 24 ++ cmdData v ∧
      t.trace = s.trace ++ startEvents c k ++ pollEvents s.cfg (failed ++ [last]) ++ [.read cmdOff v]

/-- An operation with the words `c`, `k` that spent its whole budget on the polls `failed`, `last` (R155, R158, R174 to R179,
R187). -/
structure SpentBudget (s : State) (c k : Word) (failed : List Word) (last : Word) (t : State) : Prop where
  unresolved : ∀ a ∈ failed, resolved a = false
  fails      : resolved last = false
  budget     : failed.length + 1 = s.cfg.pollBudget
  pollCount  : t.pollCount = s.cfg.pollBudget
  result     : t.res = some (timeoutResult last)
  inflight   : t.inflight = none ∨ t.inflight = some ⟨c, cscAddrLsb k, cscTimingLo k, cscTimingHi k⟩
  cmd        : t.cmd = c
  clock      : t.cscConfig = k.extractLsb' 0 29
  flags      : t.cscFlags = last.extractLsb' 29 3
  trace      : t.trace = s.trace ++ startEvents c k ++ pollEvents s.cfg (failed ++ [last])

/-- What one accepted operation leaves unchanged, and the CORE's records after it (R22, R25, R29, R31, R40, R44, R233); what it
wrote in RES is what it returns to the HOST (R194; the port is the model's, log 33). -/
structure LeftAlone (s t : State) : Prop where
  cfg         : t.cfg = s.cfg
  initialised : t.initialised = s.initialised
  prescale    : t.prescale = s.prescale
  bft         : t.bft = s.bft
  program     : t.program = s.program
  idle        : t.seq = .idle
  op          : t.op = none
  cmdVal      : t.cmdVal = none
  cscVal      : t.cscVal = none
  lastStatus  : t.lastStatus = none
  returned    : t.reply = t.res.map .result

/-- One accepted operation of direction `dir` with the words `c`, `k`, run from `s`, ended in `t` (R186, R187): resolved at
some poll, or out of budget, and nothing else. -/
def Transferred (s : State) (dir : Direction) (c k : Word) (t : State) : Prop :=
  LeftAlone s t ∧
    ∃ (failed : List Word) (last : Word), ResolvedAfter s dir c k failed last t ∨ SpentBudget s c k failed last t

/-! ## The invariant of the sequencer -/

/-- The records that go with each value of SEQ (R22, R25 to R29, R151 to R155, R160, R177), and what bring-up leaves
(R30, R31, R40). -/
structure SequencerInv (s : State) : Prop where
  cfg       : s.cfg.wf = true
  count     : s.pollCount ≤ s.cfg.pollBudget
  idle      : s.seq = .idle → s.op = none ∧ s.cmdVal = none ∧ s.cscVal = none ∧ s.lastStatus = none
  busy      : s.seq ≠ .idle → s.initialised = true ∧ ∃ r c k,
    s.op = some r ∧ s.cmdVal = some c ∧ s.cscVal = some k ∧ s.cmd = c ∧ s.cscConfig = k.extractLsb' 0 29 ∧
      encodeRequest s.cfg.timingLo s.cfg.timingHi r = some (c, k) ∧
      s.observed = some { word := c, resolved := decide (s.seq = .completed) }
  polling   : s.seq = .polling → s.pollCount < s.cfg.pollBudget
  completed : s.seq = .completed →
    1 ≤ s.pollCount ∧ s.inflight = none ∧ ∃ w, s.lastStatus = some w ∧ resolved w = true
  timedOut  : s.seq = .timedOut →
    s.pollCount = s.cfg.pollBudget ∧ ∃ w, s.lastStatus = some w ∧ resolved w = false
  prescale  : s.initialised = true → s.prescale = s.cfg.prescale400k
  inflight  : ∀ f, s.inflight = some f →
    reservedCommand f.cmd = none ∧ f.timingLo = s.cfg.timingLo ∧ f.timingHi = s.cfg.timingHi

/-! ## The discipline of the trace -/

/-- An event that the CORE may cause (R64, R104, R105, R190): an unreserved write of CSC or CMD, the write of PRESCALE_400K,
a read of CSC or CMD, a sleep of the configured length. -/
def allowedEvent (cfg : Config) : Event → Bool
  | .write off v =>
    (off == cscOff && reservedClock v == none) || (off == cmdOff && reservedCommand v == none)
      || (off == prescaleOff && v == cfg.prescale400k)
  | .read off _  => off == cscOff || off == cmdOff
  | .sleep lo hi => lo == cfg.sleepMinUs && hi == cfg.sleepMaxUs

/-- Clock-control before command (R264): every write of CMD comes directly after a write of CSC, and every write of CSC
directly before a write of CMD. `armed` says that the event before was a write of CSC. -/
def clockFirst : Bool → List Event → Bool
  | armed, []          => !armed
  | armed, e :: events =>
    if isWriteAt cscOff e then !armed && clockFirst true events
    else if isWriteAt cmdOff e then armed && clockFirst false events
    else !armed && clockFirst false events

/-- The trace of a machine since it was attached: only allowed accesses (R64), clock-control before command (R264), and one
write of PRESCALE, made by bring-up (R190, R191, R269). -/
structure TraceInv (s : State) : Prop where
  allowed  : ∀ e ∈ s.trace, allowedEvent s.cfg e = true
  ordered  : clockFirst false s.trace = true
  prescale : (s.trace.filter (isWriteAt prescaleOff)).length = if s.initialised then 1 else 0

end Sys2Proof.Machine
end

