-- ==== Sys2Proof/Certificates/Slice0/Obligations.lean ====
section
/-! DEFINITION. The statements for the provers: what the rules of the spec say the machine does, and what it leaves alone.
`reply`, `program`, `envScript` and `envDraws` are the model's own fields (logs 3, 11, 33). -/

open Sys2Proof Sys2Proof.Machine

/-! ## Encoding -/

/-- Six words written out from R101's patterns decode to the operation, with every operand read from its own bits. The
first three have companion words of 0, so bit 0 of the address is 0; the last three carry a companion whose bit 0 is 1. The
place of a plain command byte is the spec's decision D6 (log 21). -/
def Obligations.TableWordsDecode : Prop :=
  decodeTableWord 32 0b01010100000000000001000000000000 = some (.byteRead 0x54#7 0x10#8 0#16) ∧
  decodeTableWord 32 0b11010100000000000001000010100111 = some (.byteWrite 0x54#7 0x10#8 0x00A7#16) ∧
  decodeTableWord 32 0b11010101000100001110111110111110 = some (.wordWrite 0x54#7 0x10#8 0xBEEF#16) ∧
  decodeTableWord 64 0x0024685B7E00FF00 = some (.byteRead 0x7F#7 0xFF#8 0#16) ∧
  decodeTableWord 64 0x0024685BAA003C81 = some (.byteWrite 0x2B#7 0x3C#8 0x0081#16) ∧
  decodeTableWord 64 0x0024685BD1203412 = some (.wordWrite 0x51#7 0x20#8 0x1234#16)

/-- Decode and encode agree: every well-formed BYTE_READ, BYTE_WRITE and WORD_WRITE has a pair of words, for every value of
the two timing parameters, and decoding the pair, or its eight bytes with any bytes after them, gives the operation back
(R130, R102). The byte layout is the model's (log 4); the words rest on D6, D7 and D8 (logs 21 to 23). -/
def Obligations.DecodeOfEncode : Prop :=
  ∀ (lo : BitVec 8) (hi : BitVec 16) (i : Instr), i.wellFormed = true →
    i.mnemonic = "BYTE_READ" ∨ i.mnemonic = "BYTE_WRITE" ∨ i.mnemonic = "WORD_WRITE" →
    ∃ c k : Word, encode lo hi i = some (c, k) ∧ decodeWords c k = .ok i ∧
      ∀ rest : List Byte, decode (bytesOfPair (c, k) ++ rest) = .ok (i, rest)

/-- Encode of decode: a pair of words that decodes to a write is the pair its operation encodes to, under the timing the pair
carries; one that decodes to a read is, once its DATA byte is cleared, which R104 (c) lets be anything and the encoder writes
as 0 (D7, log 22). The companion word rests on D8 (log 23) and on the refusal of its bits 31:25 (D19, logs 5 and 39), the byte
words on D6 (log 21). -/
def Obligations.EncodeOfDecode : Prop :=
  ∀ (c k : Word) (i : Instr), decodeWords c k = .ok i →
    i.wellFormed = true ∧
    (cmdDirection c = .write → encode (cscTimingLo k) (cscTimingHi k) i = some (c, k)) ∧
    (cmdDirection c = .read → encode (cscTimingLo k) (cscTimingHi k) i = some (c &&& 0xFFFFFF00#32, k))

/-- The rows of R101 and the decoder say the same: no word belongs to two rows, and a word that belongs to a row, with an
unreserved companion, decodes to an operation of that row. -/
def Obligations.RowsOfTableDecode : Prop :=
  (∀ (w : Word) (a b : OpcodeRow), a ∈ opcodeRows → b ∈ opcodeRows → a.holds w = true → b.holds w = true → a = b) ∧
  (∀ (w k : Word) (row : OpcodeRow), row ∈ opcodeRows → row.holds w = true → reservedClock k = none →
    ∃ i, decodeWords w k = .ok i ∧ i.mnemonic = row.mnemonic)

/-- The reserved words of R104 and R105, by their masks, and that no other word is refused: pattern (a) and pattern (b) are
refused by name; every other word is accepted: a read word with bits 24:16 clear (pattern (c) among them) is a BYTE_READ, a
write word with bits 24:16 clear a BYTE_WRITE, and a write word with bit 24 set a WORD_WRITE; a companion with one of its
bits 31:25 set is refused whatever the command (decision D19; logs 5, 39). -/
def Obligations.ReservedWordsRefused : Prop :=
  (∀ c k : Word, k &&& 0xFE000000#32 = 0#32 → c &&& 0x81000000#32 = 0x01000000#32 →
    decodeWords c k = .error .reservedWordRead) ∧
  (∀ c k : Word, k &&& 0xFE000000#32 = 0#32 → c &&& 0x01000000#32 = 0#32 → c &&& 0x00FF0000#32 ≠ 0#32 →
    decodeWords c k = .error .reservedMasterHigh) ∧
  (∀ c k : Word, k &&& 0xFE000000#32 = 0#32 → c &&& 0x81FF0000#32 = 0#32 →
    ∃ a b, decodeWords c k = .ok (.byteRead a b 0#16)) ∧
  (∀ c k : Word, k &&& 0xFE000000#32 = 0#32 → c &&& 0x81FF0000#32 = 0x80000000#32 →
    ∃ a b p, decodeWords c k = .ok (.byteWrite a b p)) ∧
  (∀ c k : Word, k &&& 0xFE000000#32 = 0#32 → c &&& 0x81000000#32 = 0x81000000#32 →
    ∃ a b p, decodeWords c k = .ok (.wordWrite a b p)) ∧
  (∀ c k : Word, k &&& 0xFE000000#32 ≠ 0#32 →
    decodeWords c k = .error .reservedClockBits ∨ decodeWords c k = .error .clockFlagBits)

/-- R125 on the encoder: the CMD_VAL of an accepted request is the OR of its five field values, each in its place, and equals
their sum; and masking and shifting CMD_VAL gives each field value back. The five values are those of R94 to R97 and R124;
that a plain command byte is the low byte of MASTER_ADDRESS is D6 (log 21), that DATA is 0 in a read D7 (log 22). -/
def Obligations.CommandFieldsReadBack : Prop :=
  ∀ (lo : BitVec 8) (hi : BitVec 16) (r : Request) (c k : Word) (dir dev maf master data : Word),
    encodeRequest lo hi r = some (c, k) →
    dir = (if r.dir = .write then 1#32 else 0#32) →
    dev = (r.addr.extractLsb' 1 6).setWidth 32 →
    maf = (if r.width = .word then 1#32 else 0#32) →
    master = (if r.width = .word then (r.cmd ++ r.payload.extractLsb' 0 8).setWidth 32 else r.cmd.setWidth 32) →
    data = (if r.dir = .read then 0#32
      else if r.width = .word then (r.payload.extractLsb' 8 8).setWidth 32 else (r.payload.extractLsb' 0 8).setWidth 32) →
    c = (dir <<< 31) ||| (dev <<< 25) ||| (maf <<< 24) ||| (master <<< 8) ||| data ∧
    c = (dir <<< 31) + (dev <<< 25) + (maf <<< 24) + (master <<< 8) + data ∧
    (c &&& 0x80000000#32) >>> 31 = dir ∧ (c &&& 0x7E000000#32) >>> 25 = dev ∧ (c &&& 0x01000000#32) >>> 24 = maf ∧
    (c &&& 0x00FFFF00#32) >>> 8 = master ∧ c &&& 0x000000FF#32 = data

/-- R123: for every accepted operation DEVICE_ADDRESS is `OP.addr[6:1]`; two requests that differ at most in bit 0 of the
address get the same CMD_VAL, and CSC_VALs that differ at most in bit 0, which is bit 0 of the address (R94). -/
def Obligations.AddressSplit : Prop :=
  ∀ (lo : BitVec 8) (hi : BitVec 16) (r : Request) (b : TargetAddr) (c k : Word),
    encodeRequest lo hi r = some (c, k) →
    cmdDeviceAddress c = r.addr.extractLsb' 1 6 ∧ k.getLsbD 0 = r.addr.getLsbD 0 ∧
    (b.extractLsb' 1 6 = r.addr.extractLsb' 1 6 →
      ∃ k', encodeRequest lo hi { r with addr := b } = some (c, k') ∧
        k' &&& 0xFFFFFFFE#32 = k &&& 0xFFFFFFFE#32 ∧ k'.getLsbD 0 = b.getLsbD 0)

/-- R96: in a WORD_WRITE the command byte is in CMDWORD bits 23:16 and the low payload byte in bits 15:8, for every operand;
and MASTER_ADDRESS is `(cmd << 8) | payload[7:0]`. -/
def Obligations.WordWritePacksMasterAddress : Prop :=
  ∀ (lo : BitVec 8) (hi : BitVec 16) (a : TargetAddr) (cmd : Byte) (p : BitVec 16),
    ∃ c k, encode lo hi (.wordWrite a cmd p) = some (c, k) ∧
      cmdMaf c = true ∧ cmdMasterAddress c = (cmd.setWidth 16 <<< 8) ||| (p &&& 0xFF#16) ∧
      c.extractLsb' 16 8 = cmd ∧ c.extractLsb' 8 8 = p.extractLsb' 0 8

/-- The exhaustive properties of 95_test_vectors.md section 3.1, (1) to (6), over every request that has words. Those of the
byte widths and of the upper CSC bits rest on D6 and D8 (logs 21, 23). -/
def Obligations.EncodedWordProperties : Prop :=
  ∀ (lo : BitVec 8) (hi : BitVec 16) (r : Request) (c k : Word), encodeRequest lo hi r = some (c, k) →
    (c.getLsbD 24 = true ↔ r.width = .word) ∧
    (c.getLsbD 31 = true ↔ r.dir = .write) ∧
    c.extractLsb' 25 6 = r.addr.extractLsb' 1 6 ∧
    (k.extractLsb' 25 7 = 0#7 ∧ k.getLsbD 0 = r.addr.getLsbD 0 ∧ k.extractLsb' 1 8 = lo ∧ k.extractLsb' 9 16 = hi) ∧
    (r.width = .byte → c.extractLsb' 16 8 = 0#8 ∧ c.extractLsb' 8 8 = r.cmd ∧
      c.extractLsb' 0 8 = if r.dir = .write then r.payload.extractLsb' 0 8 else 0#8) ∧
    (r.width = .word → c.extractLsb' 16 8 = r.cmd ∧ c.extractLsb' 8 8 = r.payload.extractLsb' 0 8 ∧
      c.extractLsb' 0 8 = r.payload.extractLsb' 8 8)

/-- Property (7) of 95_test_vectors.md section 3.1: two requests with the same pair of words agree in direction, width,
address, command byte and the payload bits the operation uses. -/
def Obligations.EncodeInjective : Prop :=
  ∀ (lo : BitVec 8) (hi : BitVec 16) (r r' : Request) (p : Word × Word),
    encodeRequest lo hi r = some p → encodeRequest lo hi r' = some p →
    r.dir = r'.dir ∧ r.width = r'.width ∧ r.addr = r'.addr ∧ r.cmd = r'.cmd ∧
    (r.dir = .write → r.payload.extractLsb' 0 8 = r'.payload.extractLsb' 0 8) ∧
    (r.width = .word → r.payload = r'.payload)

/-- R134: whether the encoder rejects is decided by `dir` and `width` alone: a word read and every other size. -/
def Obligations.RejectionByShapeAlone : Prop :=
  ∀ (lo : BitVec 8) (hi : BitVec 16) (r : Request),
    (encodeRequest lo hi r = none ↔ r.width = .other ∨ (r.width = .word ∧ r.dir = .read)) ∧
    ∀ (lo' : BitVec 8) (hi' : BitVec 16) (a : TargetAddr) (cmd : Byte) (p : BitVec 16),
      (encodeRequest lo' hi' ⟨a, r.dir, cmd, r.width, p⟩).isSome = (encodeRequest lo hi r).isSome

/-! ## The step -/

/-- A step runs the decoded line: in IDLE, when the HOST's next line decodes to `i`, the step is `exec i` with the line taken
off the list. With a reserved pattern the step is refused by name, and with no line the CORE stays as it is (logs 3, 4). -/
def Obligations.StepRunsNextLine : Prop :=
  (∀ (s : State) (line : HostLine) (rest : List HostLine) (i : Instr),
    s.seq = .idle → s.program = line :: rest → line.decode = .ok i → step s = exec i { s with program := rest }) ∧
  (∀ (s : State) (line : HostLine) (rest : List HostLine) (e : DecodeError),
    s.seq = .idle → s.program = line :: rest → line.decode = .error e → step s = .refused (.reservedEncoding e)) ∧
  (∀ s : State, s.seq = .idle → s.program = [] → step s = .next s)

/-- Every operation can be presented as a line, typed or in words: the line of `i` runs `i`, and a request's line runs the row
that its direction and width select (R100, R110). -/
def Obligations.EveryOperationHasLine : Prop :=
  (∀ (s : State) (i : Instr), s.seq = .idle → step { s with program := i.line :: s.program } = exec i s) ∧
  (∀ (s : State) (r : Request), s.seq = .idle →
    step { s with program := .execute r :: s.program } = exec r.instr s ∧ r.instr.request = some r)

/-- A word of the opcode table put in place by `withFetchWord` is run by the very next step, from every state (log 2). -/
def Obligations.FetchWordRuns : Prop :=
  ∀ (s : State) (nbits w : Nat) (i : Instr), decodeTableWord nbits w = some i →
    step (s.withFetchWord nbits w) = exec i { s.withFetchWord nbits w with program := s.program }

/-! ## Rejected shapes, INIT, CAPS -/

/-- R132, R133: WORD_READ and OTHER, with any operands, end in a next state in which RES is UnsupportedOperation and every
other piece of state is as before: no register access, SEQ, POLL_COUNT and INFLIGHT untouched (the premise is R188's and
R189's). What RES holds is returned to the HOST (R194): that clause is about the model's own port `reply` (log 33). -/
def Obligations.RejectedShapesComplete : Prop :=
  (∀ (s : State) (a : TargetAddr) (cmd : Byte) (p : BitVec 16), s.ready = true →
    exec (.wordRead a cmd p) s = .next { s with
      res := some .unsupportedOperation, reply := some (.result .unsupportedOperation) }) ∧
  (∀ (s : State) (a : TargetAddr) (dir : Direction) (cmd : Byte) (p : BitVec 16), s.ready = true →
    exec (.other a dir cmd p) s = .next { s with
      res := some .unsupportedOperation, reply := some (.result .unsupportedOperation) })

/-- INIT before bring-up completes, in every state in which PRESCALE has not been written, as in every state with the discipline
of the trace: PRESCALE holds PRESCALE_400K, INITIALISED is set, the trace gains that
one write, and nothing else changes. That it makes no other write is the spec's decision D31 (log 30). -/
def Obligations.InitCompletes : Prop :=
  ∀ s : State, s.initialised = false → s.trace.any (isWriteAt 0x0CC) = false ∨ TraceInv s →
    exec .init s = .next { s with
      prescale := s.cfg.prescale400k, initialised := true, reply := none,
      trace := s.trace ++ [.write 0x0CC s.cfg.prescale400k] }

/-- CAPS completes in every state and returns the set of the three names, the same whatever the state; nothing else changes.
The port `reply` it is returned in is the model's (log 33). -/
def Obligations.CapsCompletes : Prop :=
  ∀ s : State,
    exec .caps s = .next { s with reply := some (.capabilities { byteRead := true, byteWrite := true, wordWrite := true }) }

/-- Where the spec's decisions D20 and D21 refuse: any bus operation before INIT, whatever its shape; a second INIT; any bus
operation while another is in progress (logs 26, 27). And INIT where PRESCALE has already been written on the window, which
would be a second write (R191 with U12; log 18). -/
def Obligations.RefusedOutsideOrder : Prop :=
  (∀ (s : State) (r : Request), s.initialised = false → exec r.instr s = .refused .beforeBringUp) ∧
  (∀ (s : State), s.initialised = true → exec .init s = .refused .secondInit) ∧
  (∀ (s : State), s.initialised = false → s.trace.any (isWriteAt 0x0CC) = true →
    exec .init s = .refused .prescaleRewrite) ∧
  (∀ (s : State) (r : Request), s.initialised = true → s.seq ≠ .idle → exec r.instr s = .refused .operationInProgress)

/-! ## Accepted operations -/

/-- BYTE_READ, BYTE_WRITE and WORD_WRITE complete for every operand and every ENV: with a budget of at least 1, `exec`
answers a next state in which the operation has resolved at some poll within the budget, or has spent exactly its budget,
with the trace, the result and the registers that R187 gives for each, and everything else left alone. The words are written
out from R127 to R129 (their plain command byte, DATA 0 and upper CSC bits are D6, D7, D8; logs 21 to 23). Of what
`Transferred` says, the flags are log 12, INFLIGHT log 13, CMD after a CMD read log 14, CMD after a timeout log 13, the sleep
before a timeout D14 (log 24), the accesses after the loop D16 and D28 (logs 25, 29), and the port `reply` log 33. -/
def Obligations.TransfersComplete : Prop :=
  ∀ (s : State) (a : TargetAddr) (cmd : Byte) (p : BitVec 16), s.ready = true → 1 ≤ s.cfg.pollBudget →
    (∃ t, exec (.byteRead a cmd p) s = .next t ∧
      Transferred s .read (0#1 ++ a.extractLsb' 1 6 ++ 0#1 ++ 0#8 ++ cmd ++ 0#8)
        (0#7 ++ s.cfg.timingHi ++ s.cfg.timingLo ++ a.extractLsb' 0 1) t) ∧
    (∃ t, exec (.byteWrite a cmd p) s = .next t ∧
      Transferred s .write (1#1 ++ a.extractLsb' 1 6 ++ 0#1 ++ 0#8 ++ cmd ++ p.extractLsb' 0 8)
        (0#7 ++ s.cfg.timingHi ++ s.cfg.timingLo ++ a.extractLsb' 0 1) t) ∧
    (∃ t, exec (.wordWrite a cmd p) s = .next t ∧
      Transferred s .write (1#1 ++ a.extractLsb' 1 6 ++ 1#1 ++ cmd ++ p.extractLsb' 0 8 ++ p.extractLsb' 8 8)
        (0#7 ++ s.cfg.timingHi ++ s.cfg.timingLo ++ a.extractLsb' 0 1) t)

/-- A BYTE_READ whose first poll to pass the exit test is the one after the answers `failed` (any failing answers, an early
NAK among them: R182) returns Ok with bits 7:0 of the answer to the CMD read, after exactly that many polls, each failed one
followed by one sleep (R158, R172). The words are D6 to D8 (logs 21 to 23), the one CMD read D16 (log 25), INFLIGHT none is
R205 with log 13, and `reply` is the model's port (log 33). -/
def Obligations.ByteReadReturnsData : Prop :=
  ∀ (s : State) (a : TargetAddr) (cmd : Byte) (p : BitVec 16) (failed : List Word) (last v : Word) (rest : List Word),
    s.ready = true → failed.length < s.cfg.pollBudget → s.envScript = failed ++ last :: v :: rest →
    (∀ x ∈ failed, x &&& 0xC0000000#32 ≠ 0#32) → last &&& 0xC0000000#32 = 0#32 →
    ∃ t, exec (.byteRead a cmd p) s = .next t ∧ t.res = some (.ok (some (v.extractLsb' 0 8))) ∧
      t.reply = some (.result (.ok (some (v.extractLsb' 0 8)))) ∧ t.seq = .idle ∧
      t.pollCount = failed.length + 1 ∧ t.envScript = rest ∧ t.inflight = none ∧
      ∃ c k, encode s.cfg.timingLo s.cfg.timingHi (.byteRead a cmd p) = some (c, k) ∧
        t.trace = s.trace ++ [.write 0x0D0 k, .write 0x0C8 c]
          ++ failed.flatMap (fun x => [.read 0x0D0 x, .sleep s.cfg.sleepMinUs s.cfg.sleepMaxUs])
          ++ [.read 0x0D0 last, .read 0x0C8 v]

/-- A BYTE_WRITE or WORD_WRITE whose first poll to pass the exit test is the one after the answers `failed` returns Ok without
data after exactly that many polls, and makes no further access (R158, R173). The words are D6 and D8 (logs 21, 23), no further
access is D16 (log 25), INFLIGHT none is R205 with log 13, and `reply` is the model's port (log 33). -/
def Obligations.WritesReturnOk : Prop :=
  ∀ (s : State) (i : Instr) (a : TargetAddr) (cmd : Byte) (p : BitVec 16) (failed : List Word) (last : Word)
    (rest : List Word),
    i = .byteWrite a cmd p ∨ i = .wordWrite a cmd p →
    s.ready = true → failed.length < s.cfg.pollBudget → s.envScript = failed ++ last :: rest →
    (∀ x ∈ failed, x &&& 0xC0000000#32 ≠ 0#32) → last &&& 0xC0000000#32 = 0#32 →
    ∃ t, exec i s = .next t ∧ t.res = some (.ok none) ∧ t.reply = some (.result (.ok none)) ∧ t.seq = .idle ∧
      t.pollCount = failed.length + 1 ∧ t.envScript = rest ∧ t.inflight = none ∧
      ∃ c k, encode s.cfg.timingLo s.cfg.timingHi i = some (c, k) ∧
        t.trace = s.trace ++ [.write 0x0D0 k, .write 0x0C8 c]
          ++ failed.flatMap (fun x => [.read 0x0D0 x, .sleep s.cfg.sleepMinUs s.cfg.sleepMaxUs])
          ++ [.read 0x0D0 last]

/-- An accepted operation none of whose first POLL_BUDGET polls passes the exit test returns, after exactly POLL_BUDGET polls
and as many sleeps, BusRecoveryFailed if the last answer has LHE or RIP set and DeviceNotResponding if it has NAK alone, and
makes no other access (R155, R158, R178, R179). The words are D6 to D8 (logs 21 to 23), the last sleep is D14 (log 24), no
other access is D16 and D28 (logs 25, 29), and `reply` is the model's port (log 33). -/
def Obligations.TimeoutsReturnError : Prop :=
  ∀ (s : State) (i : Instr) (a : TargetAddr) (cmd : Byte) (p : BitVec 16) (failed : List Word) (last : Word)
    (rest : List Word),
    i = .byteRead a cmd p ∨ i = .byteWrite a cmd p ∨ i = .wordWrite a cmd p →
    s.ready = true → failed.length + 1 = s.cfg.pollBudget → s.envScript = failed ++ last :: rest →
    (∀ x ∈ failed, x &&& 0xC0000000#32 ≠ 0#32) → last &&& 0xC0000000#32 ≠ 0#32 →
    ∃ t, exec i s = .next t ∧ t.seq = .idle ∧ t.pollCount = s.cfg.pollBudget ∧ t.envScript = rest ∧
      t.res = some (if last.getLsbD 29 || last.getLsbD 30 then .busRecoveryFailed else .deviceNotResponding) ∧
      t.reply = some (.result
        (if last.getLsbD 29 || last.getLsbD 30 then .busRecoveryFailed else .deviceNotResponding)) ∧
      ∃ c k, encode s.cfg.timingLo s.cfg.timingHi i = some (c, k) ∧
        t.trace = s.trace ++ [.write 0x0D0 k, .write 0x0C8 c]
          ++ (failed ++ [last]).flatMap (fun x => [.read 0x0D0 x, .sleep s.cfg.sleepMinUs s.cfg.sleepMaxUs])

/-- R226, R227, R229: which operations raise which error kind, and why. WORD_READ and OTHER raise UnsupportedOperation,
before any register access, and no other operation does. BusRecoveryFailed and DeviceNotResponding come from BYTE_READ,
BYTE_WRITE and WORD_WRITE alone, after exactly POLL_BUDGET polls, of which the last had LHE or RIP set, whatever NAK was, or
NAK set with RIP and LHE clear. The complete trace at an error, one sleep after every failed poll and no access after the
loop, is D14, D16 and D28 (logs 24, 25, 29). -/
def Obligations.ErrorKindCauses : Prop :=
  ∀ (s t : State) (r : Request), 1 ≤ s.cfg.pollBudget → exec r.instr s = .next t →
    ((r.width = .other ∨ (r.width = .word ∧ r.dir = .read)) →
      t.res = some .unsupportedOperation ∧ t.trace = s.trace) ∧
    (t.res = some .unsupportedOperation → r.width = .other ∨ (r.width = .word ∧ r.dir = .read)) ∧
    (t.res = some .busRecoveryFailed ∨ t.res = some .deviceNotResponding →
      r.width ≠ .other ∧ ¬(r.width = .word ∧ r.dir = .read) ∧
      ∃ (c k : Word) (polls : List Word) (last : Word), polls.length + 1 = s.cfg.pollBudget ∧
        t.pollCount = s.cfg.pollBudget ∧
        t.trace = s.trace ++ startEvents c k ++ pollEvents s.cfg (polls ++ [last]) ∧
        (t.res = some .busRecoveryFailed → last.getLsbD 29 = true ∨ last.getLsbD 30 = true) ∧
        (t.res = some .deviceNotResponding →
          last.getLsbD 31 = true ∧ last.getLsbD 30 = false ∧ last.getLsbD 29 = false))

/-- How many accesses and sleeps an accepted operation makes, and which (R187, R158, R273): one write of CSC, one of CMD, as
many reads of CSC as POLL_COUNT says at the end, one read of CMD exactly when a read ended in Ok, and no other access; one
sleep fewer than polls when it ended in Ok, and POLL_BUDGET polls and as many sleeps when it did not (D14, log 24); so 3 to
POLL_BUDGET + 3 accesses, and a total sleep within the number of sleeps times the two bounds. The accesses after the loop are
D16 and D28 (logs 25, 29). -/
def Obligations.AccessCounts : Prop :=
  ∀ (s t : State) (r : Request) (p : Word × Word), 1 ≤ s.cfg.pollBudget →
    encodeRequest s.cfg.timingLo s.cfg.timingHi r = some p → exec r.instr s = .next t →
    ∃ events, t.trace = s.trace ++ events ∧
      1 ≤ t.pollCount ∧ t.pollCount ≤ s.cfg.pollBudget ∧
      (events.filter (isWriteAt cscOff)).length = 1 ∧ (events.filter (isWriteAt cmdOff)).length = 1 ∧
      (events.filter (isReadAt cscOff)).length = t.pollCount ∧
      ((∃ d, t.res = some (.ok d)) →
        (events.filter (isReadAt cmdOff)).length = (if r.dir = .read then 1 else 0) ∧
        (events.filter isAccess).length = 2 + t.pollCount + (if r.dir = .read then 1 else 0) ∧
        (events.filter isSleep).length = t.pollCount - 1 ∧
        sleepBounds events = ((t.pollCount - 1) * s.cfg.sleepMinUs, (t.pollCount - 1) * s.cfg.sleepMaxUs)) ∧
      ((¬∃ d, t.res = some (.ok d)) →
        t.pollCount = s.cfg.pollBudget ∧
        (events.filter (isReadAt cmdOff)).length = 0 ∧
        (events.filter isAccess).length = 2 + s.cfg.pollBudget ∧
        (events.filter isSleep).length = s.cfg.pollBudget ∧
        sleepBounds events = (s.cfg.pollBudget * s.cfg.sleepMinUs, s.cfg.pollBudget * s.cfg.sleepMaxUs))

/-- What the next accepted operation does does not depend on the records and registers left from earlier ones or from reset
(R31, R235, R257): two states that may differ in RES, POLL_COUNT, `reply`, transients and register contents, but agree in configuration, trace,
bring-up and ENV (the trace is ENV's history, so it is held equal: log 11), give the same result, trace, counter, registers CMD
and CSC, and INFLIGHT. That the flags and INFLIGHT are equal rests on logs 12 and 13. Rejected shapes: RejectedShapesComplete. -/
def Obligations.EarlierResultsLeaveNoMark : Prop :=
  ∀ (s s' t : State) (r : Request),
    s'.cfg = s.cfg → s'.trace = s.trace → s'.envScript = s.envScript → s'.envDraws = s.envDraws →
    s'.initialised = s.initialised → s'.seq = s.seq → 1 ≤ s.cfg.pollBudget →
    encodeRequest s.cfg.timingLo s.cfg.timingHi r ≠ none → exec r.instr s = .next t →
    ∃ t', exec r.instr s' = .next t' ∧ t'.res = t.res ∧ t'.trace = t.trace ∧ t'.pollCount = t.pollCount ∧
      t'.cmd = t.cmd ∧ t'.csc = t.csc ∧ t'.inflight = t.inflight ∧ t'.reply = t.reply ∧
      t'.envScript = t.envScript ∧ t'.envDraws = t.envDraws

/-! ## The sequencer, one transition at a time -/

/-- R160, rows 2 to 4: in POLLING one step makes one poll; the status decides between COMPLETED, POLLING and TIMEDOUT, the
sleep comes after a failed test only, and everything that the poll does not concern is unchanged. (LHE has no part: D25, log
28; the sleep before TIMEDOUT: D14, log 24; the flags from the answer: R208, log 12; INFLIGHT: R205, log 13.) -/
def Obligations.PollTransition : Prop :=
  ∀ (s : State) (r : Request), s.seq = .polling → s.op = some r → s.pollCount < s.cfg.pollBudget →
    ∃ t, step s = .next t ∧ t.pollCount = s.pollCount + 1 ∧
      t.lastStatus = some (s.envAnswer 0x0D0) ∧ t.cscFlags = (s.envAnswer 0x0D0).extractLsb' 29 3 ∧
      ((s.envAnswer 0x0D0).getLsbD 31 = false ∧ (s.envAnswer 0x0D0).getLsbD 30 = false →
        t.seq = .completed ∧ t.trace = s.trace ++ [.read 0x0D0 (s.envAnswer 0x0D0)] ∧ t.inflight = none) ∧
      ((s.envAnswer 0x0D0).getLsbD 31 = true ∨ (s.envAnswer 0x0D0).getLsbD 30 = true →
        (s.pollCount + 1 < s.cfg.pollBudget → t.seq = .polling) ∧
        (s.pollCount + 1 = s.cfg.pollBudget → t.seq = .timedOut) ∧
        t.trace = s.trace ++ [.read 0x0D0 (s.envAnswer 0x0D0), .sleep s.cfg.sleepMinUs s.cfg.sleepMaxUs] ∧
        t.inflight = s.inflight) ∧
      t.cfg = s.cfg ∧ t.op = s.op ∧ t.cmdVal = s.cmdVal ∧ t.cscVal = s.cscVal ∧ t.res = s.res ∧
      t.initialised = s.initialised ∧ t.cmd = s.cmd ∧ t.prescale = s.prescale ∧ t.cscConfig = s.cscConfig ∧
      t.bft = s.bft ∧ t.program = s.program ∧ t.reply = s.reply

/-- R174, R175, R176: in TIMEDOUT one step classifies. LHE or RIP in the last status gives BusRecoveryFailed, NAK or not; NAK
alone gives DeviceNotResponding; and SEQ is IDLE. -/
def Obligations.TimeoutClassified : Prop :=
  ∀ (s : State) (r : Request) (w : Word), s.seq = .timedOut → s.op = some r → s.lastStatus = some w →
    ∃ t, step s = .next t ∧ t.seq = .idle ∧
      (w.getLsbD 29 = true ∨ w.getLsbD 30 = true → t.res = some .busRecoveryFailed) ∧
      (w.getLsbD 29 = false → w.getLsbD 30 = false → w.getLsbD 31 = true → t.res = some .deviceNotResponding)

/-- In COMPLETED one step classifies (R172, R173, D16, log 25): a read makes one read of CMD and returns bits 7:0 of the
answer, whatever its other bits; a write makes no access and returns no data; either way SEQ is IDLE, the records of the
operation are discarded and no flag is looked at. That CMD takes bits 7:0 of the answer and keeps its bits 31:8 is log 14, that
the flags and INFLIGHT stay logs 12 and 13. -/
def Obligations.CompletionClassified : Prop :=
  ∀ (s : State) (r : Request), s.seq = .completed → s.op = some r →
    ∃ t, step s = .next t ∧ t.seq = .idle ∧ t.op = none ∧ t.cmdVal = none ∧ t.cscVal = none ∧ t.lastStatus = none ∧
      (r.dir = .read → t.res = some (.ok (some ((s.envAnswer 0x0C8).extractLsb' 0 8))) ∧
        t.trace = s.trace ++ [.read 0x0C8 (s.envAnswer 0x0C8)] ∧
        t.cmd = s.cmd.extractLsb' 8 24 ++ (s.envAnswer 0x0C8).extractLsb' 0 8) ∧
      (r.dir = .write → t.res = some (.ok none) ∧ t.trace = s.trace ∧ t.cmd = s.cmd) ∧
      t.cfg = s.cfg ∧ t.pollCount = s.pollCount ∧ t.initialised = s.initialised ∧ t.prescale = s.prescale ∧
      t.cscConfig = s.cscConfig ∧ t.cscFlags = s.cscFlags ∧ t.bft = s.bft ∧ t.inflight = s.inflight ∧
      t.program = s.program

/-- One `exec` of an accepted operation is its start (R160 row 1) followed by single transitions of the sequencer: the steps
of the machine from the started state reach the same state, within POLL_BUDGET polls and one classification. -/
def Obligations.ExecIsStartThenSteps : Prop :=
  ∀ (s t : State) (r : Request) (c k : Word), s.ready = true → 1 ≤ s.cfg.pollBudget →
    encodeRequest s.cfg.timingLo s.cfg.timingHi r = some (c, k) → exec r.instr s = .next t →
    ∃ n, 2 ≤ n ∧ n ≤ s.cfg.pollBudget + 1 ∧ Host.Core.run core n (startTransaction r c k s) = .next t

/-- R161: the loop always ends, after at most POLL_BUDGET iterations, whatever ENV answers: from POLLING the steps of the
machine leave it within the polls that the budget has left. -/
def Obligations.PollLoopEnds : Prop :=
  ∀ (s : State) (r : Request), s.seq = .polling → s.op = some r → s.pollCount < s.cfg.pollBudget →
    ∃ (n : Nat) (t : State), n ≤ s.cfg.pollBudget - s.pollCount ∧ Host.Core.run core n s = .next t ∧
      (t.seq = .completed ∨ t.seq = .timedOut)

/-! ## The device side -/

/-- After the clock-control write and the trigger of an accepted operation the engine has in flight exactly what was asked for:
its target address, direction, command byte and payload are the request's, and its timing the configuration's (R203; sampled
at the trigger by D33, log 32). -/
def Obligations.TriggerStartsRequest : Prop :=
  ∀ (s : State) (r : Request) (c k : Word),
    encodeRequest s.cfg.timingLo s.cfg.timingHi r = some (c, k) →
    ∃ f, (writeCmd c (writeCsc k s)).inflight = some f ∧ f.target = r.addr ∧ f.direction = r.dir ∧ f.command = r.cmd ∧
      f.timingLo = s.cfg.timingLo ∧ f.timingHi = s.cfg.timingHi ∧
      (r.width = .word → f.payload = r.payload) ∧
      (r.width = .byte → r.dir = .write → f.payload = r.payload &&& 0xFF#16)

/-- Every access the CORE makes is one the register window takes, with the effect the operations use (R64; log 16): the two
writes of every accepted request; every CSC read; INIT's PRESCALE write, where PRESCALE has not been written (log 18); and the CMD read that the classifier makes, after the poller of a BYTE_READ has ended in COMPLETED, and in
every COMPLETED state of a read with the invariant of the sequencer (log 19). -/
def Obligations.CoreAccessesTaken : Prop :=
  ∀ s : State, s.cfg.base % 4 = 0 →
    (∀ (r : Request) (c k : Word), encodeRequest s.cfg.timingLo s.cfg.timingHi r = some (c, k) →
      write32 0x0D0 k s = .ok (writeCsc k s) ∧ write32 0x0C8 c s = .ok (writeCmd c s) ∧
      (r.dir = .read → 1 ≤ s.cfg.pollBudget → (poll r c k s).seq = .completed →
        read32 0x0C8 (poll r c k s) = .ok ((poll r c k s).envAnswer 0x0C8, readCmd (poll r c k s)))) ∧
    read32 0x0D0 s = .ok (s.envAnswer 0x0D0, readCsc s) ∧
    (∀ r : Request, SequencerInv s → s.seq = .completed → s.op = some r → r.dir = .read →
      read32 0x0C8 s = .ok (s.envAnswer 0x0C8, readCmd s)) ∧
    (s.prescaleWritten = false →
      write32 0x0CC s.cfg.prescale400k s = .ok (writePrescale s.cfg.prescale400k s))

/-- What the register window refuses, each by its name (D12 and D19; log 39): another width than four bytes, a misaligned
address, an address of none of the four registers; a write of CMD with the reserved pattern (a) or (b) of R104 and a write of
CSC with one of bits 31:25 set (R105, R202, R203); any access of BFT and a read of PRESCALE (R209); a write of PRESCALE after
bring-up or after any earlier write (U12, log 18), and a first one with another value than PRESCALE_400K, PRESCALE_100K among
them (U12, log 17); a read of CMD other than after a read transaction has resolved: none started, the latest one a write, or
no poll since its trigger with RIP and NAK clear (R19, R271, U8; log 19). -/
def Obligations.WindowRefusals : Prop :=
  ∀ (s : State) (v : Word),
    (∀ addr width, width ≠ 4 →
      memWrite addr width v s = .error .accessWidth ∧ memRead addr width s = .error .accessWidth) ∧
    (∀ addr, addr % 4 ≠ 0 →
      memWrite addr 4 v s = .error .accessMisaligned ∧ memRead addr 4 s = .error .accessMisaligned) ∧
    (∀ addr, addr % 4 = 0 → addr < s.cfg.base + 0x0C8 ∨ s.cfg.base + 0x0D7 < addr → s.cfg.base % 4 = 0 →
      memWrite addr 4 v s = .error .otherOffset ∧ memRead addr 4 s = .error .otherOffset) ∧
    (s.cfg.base % 4 = 0 →
      (v &&& 0x81000000#32 = 0x01000000#32 → write32 0x0C8 v s = .error (.reservedEncoding .reservedWordRead)) ∧
      (v &&& 0x01000000#32 = 0#32 → v &&& 0x00FF0000#32 ≠ 0#32 →
        write32 0x0C8 v s = .error (.reservedEncoding .reservedMasterHigh)) ∧
      (v &&& 0x1E000000#32 ≠ 0#32 → write32 0x0D0 v s = .error (.reservedEncoding .reservedClockBits)) ∧
      (v &&& 0x1E000000#32 = 0#32 → v &&& 0xE0000000#32 ≠ 0#32 →
        write32 0x0D0 v s = .error (.reservedEncoding .clockFlagBits)) ∧
      write32 0x0D4 v s = .error .busFreeTimeAccess ∧ read32 0x0D4 s = .error .busFreeTimeAccess ∧
      read32 0x0CC s = .error .prescaleRead ∧
      (s.initialised = true ∨ s.trace.any (isWriteAt 0x0CC) = true → write32 0x0CC v s = .error .prescaleRewrite) ∧
      (s.initialised = false → s.trace.any (isWriteAt 0x0CC) = false → v ≠ s.cfg.prescale400k →
        write32 0x0CC v s = .error .prescaleValue) ∧
      (s.trace.any (isWriteAt 0x0C8) = false → read32 0x0C8 s = .error .commandReadEarly) ∧
      (∀ (before after : List Event) (w : Word), s.trace = before ++ .write 0x0C8 w :: after →
        after.any (isWriteAt 0x0C8) = false →
        w.getLsbD 31 = true ∨ (∀ a, .read 0x0D0 a ∈ after → a &&& 0xC0000000#32 ≠ 0#32) →
        read32 0x0C8 s = .error .commandReadEarly))

/-! ## Whole-machine rules -/

/-- What no step changes (R30, R31, R40, R44, R61, R238): the configuration and BFT stay; INITIALISED once set stays set, and
PRESCALE with it; the trace only grows; SEQ leaves IDLE in no step, since an operation runs whole (log 1). -/
def Obligations.PersistentState : Prop :=
  ∀ s t : State, step s = .next t →
    t.cfg = s.cfg ∧ t.bft = s.bft ∧
    (s.initialised = true → t.initialised = true ∧ t.prescale = s.prescale) ∧
    (∃ events, t.trace = s.trace ++ events) ∧
    (s.seq = .idle → t.seq = .idle)

/-- Every step keeps the invariant of the sequencer: the records that go with each value of SEQ and what the
trace shows of its transaction, POLL_COUNT within the budget,
PRESCALE after bring-up, INFLIGHT never with a reserved word. -/
def Obligations.StepKeepsSequencerInv : Prop :=
  ∀ s t : State, SequencerInv s → step s = .next t → SequencerInv t

/-- After bring-up the bus runs at 400 kHz: in every state with the invariant, PRESCALE selects it (R206, R274). -/
def Obligations.BusSpeedAfterBringUp : Prop :=
  ∀ s : State, SequencerInv s → s.initialised = true → s.busSpeedKHz = some 400

/-- The invariant of the sequencer holds right after reset. -/
def Obligations.ResetHasSequencerInv : Prop := SequencerInv State.reset

/-- Every step keeps the discipline of the trace: only allowed accesses, clock-control before command, one write of PRESCALE
in all. -/
def Obligations.StepKeepsTraceInv : Prop :=
  ∀ s t : State, TraceInv s → step s = .next t → TraceInv t

/-- The discipline of the trace holds right after reset. -/
def Obligations.ResetHasTraceInv : Prop := TraceInv State.reset

/-- The CORE right after reset, as R256 gives it, and POLL_BUDGET and the sleep interval as R9 gives them. These reset values
are the spec's own decision D24 (log 10). -/
def Obligations.ResetState : Prop :=
  State.reset.seq = .idle ∧ State.reset.pollCount = 0 ∧ State.reset.initialised = false ∧
  State.reset.op = none ∧ State.reset.res = none ∧ State.reset.cmdVal = none ∧ State.reset.cscVal = none ∧
  State.reset.lastStatus = none ∧ State.reset.inflight = none ∧
  State.reset.cfg.pollBudget = 100 ∧ State.reset.cfg.sleepMinUs = 70 ∧ State.reset.cfg.sleepMaxUs = 100

/-! ## The descriptor -/

/-- The descriptor agrees with the operation map (R193): a request has words, whatever the timing, exactly when its row has a
name and the set that CAPS returns holds it; and in the optional numeric form, which is D23 (log 38), bit 0 is ByteRead, bit 1
ByteWrite and bit 2 WordWrite of whatever set, 0x7 for the set returned. -/
def Obligations.DescriptorMatchesOperations : Prop :=
  (∀ (lo : BitVec 8) (hi : BitVec 16) (r : Request),
    encodeRequest lo hi r ≠ none ↔ ∃ name, capabilityOf r.instr = some name ∧ capabilitySet.has name = true) ∧
  (∀ set : CapabilitySet, set.code.getLsbD 0 = set.byteRead ∧ set.code.getLsbD 1 = set.byteWrite ∧
    set.code.getLsbD 2 = set.wordWrite) ∧
  capabilitySet.code = 0x7#3

/-! ## Write-once -/

/-- PRESCALE is written once (R40, R191, R269 with U12; logs 17, 18): a write that the window takes is of PRESCALE_400K, in a
state where PRESCALE had not been written, and it stores its value; once written, every write is refused; and no access that
the window takes, at any address and of any width, makes it count as unwritten again. -/
def Obligations.PrescaleWrittenOnce : Prop :=
  (∀ (s t : State) (v : Word), s.cfg.base % 4 = 0 → write32 0x0CC v s = .ok t →
    s.prescaleWritten = false ∧ v = s.cfg.prescale400k ∧ t.prescale = v ∧ t.prescaleWritten = true) ∧
  (∀ (s : State) (v : Word), s.cfg.base % 4 = 0 → s.prescaleWritten = true →
    write32 0x0CC v s = .error .prescaleRewrite) ∧
  (∀ (s t : State) (addr width : Nat) (v : Word), s.prescaleWritten = true → memWrite addr width v s = .ok t →
    t.prescaleWritten = true) ∧
  (∀ (s t : State) (addr width : Nat) (v : Word), s.prescaleWritten = true → memRead addr width s = .ok (v, t) →
    t.prescaleWritten = true)

/-! ## Reading CMD -/

/-- When CMD can be read (R19, R39, R207, R271 with U8; log 19): after the trigger of a read and a later poll with RIP and NAK
clear, with no trigger since, the window answers with any value of ENV's; and after an operation that spent its budget it
answers no read of CMD, although the hardware may have resolved the transaction unseen (log 13). -/
def Obligations.CommandReadAfterResolvingPoll : Prop :=
  (∀ (s : State) (before after : List Event) (w a : Word), s.cfg.base % 4 = 0 →
    s.trace = before ++ .write 0x0C8 w :: after → after.any (isWriteAt 0x0C8) = false → w.getLsbD 31 = false →
    .read 0x0D0 a ∈ after → a &&& 0xC0000000#32 = 0#32 →
    read32 0x0C8 s = .ok (s.envAnswer 0x0C8, readCmd s)) ∧
  (∀ (s t : State) (r : Request), s.cfg.base % 4 = 0 → 1 ≤ s.cfg.pollBudget → exec r.instr s = .next t →
    t.res = some .busRecoveryFailed ∨ t.res = some .deviceNotResponding →
    read32 0x0C8 t = .error .commandReadEarly)
end

