-- ==== Sys2Proof/Laws/Decode.lean ====
section
/-! SUPPORT. The small lemmas of the two word formats, of the operand assembly and of the operation map: what each field of a
composed word is, and how the two spellings of a test (bits, masks) go together. -/

namespace Sys2Proof

/-! ## CMDWORD -/

/-- Every bit of a composed CMDWORD. -/
theorem getLsbD_composeCmd (d : Direction) (dev : BitVec 6) (maf : Bool) (ma : BitVec 16) (da : Byte) (i : Nat) :
    (composeCmd d dev maf ma da).getLsbD i =
      (decide (i = 31 ∧ d = .write) || (decide (25 ≤ i) && dev.getLsbD (i - 25)) || (decide (i = 24) && maf)
        || (decide (8 ≤ i) && ma.getLsbD (i - 8)) || da.getLsbD i) := by
  have one (n : Nat) (h : n < 32) : (1#32 <<< n).getLsbD i = decide (i = n) := by
    simp only [BitVec.getLsbD_shiftLeft, BitVec.getLsbD_one]
    grind
  have hd : ((if d = .write then 1#32 else 0#32) <<< 31).getLsbD i = decide (i = 31 ∧ d = .write) := by
    cases d
    · simp
    · simpa using one 31 (by omega)
  have hm : ((if maf then 1#32 else 0#32) <<< 24).getLsbD i = (decide (i = 24) && maf) := by
    cases maf
    · simp
    · simpa using one 24 (by omega)
  simp only [composeCmd, BitVec.getLsbD_or, hd, hm, BitVec.getLsbD_shiftLeft, BitVec.getLsbD_setWidth]
  grind

@[simp] theorem cmdData_composeCmd (d dev maf ma da) : cmdData (composeCmd d dev maf ma da) = da := by
  apply BitVec.eq_of_getLsbD_eq
  intro i hi
  simp only [cmdData, BitVec.getLsbD_extractLsb', getLsbD_composeCmd]
  grind

@[simp] theorem cmdMasterAddress_composeCmd (d dev maf ma da) : cmdMasterAddress (composeCmd d dev maf ma da) = ma := by
  apply BitVec.eq_of_getLsbD_eq
  intro i hi
  simp only [cmdMasterAddress, BitVec.getLsbD_extractLsb', getLsbD_composeCmd]
  grind

@[simp] theorem cmdMasterLow_composeCmd (d dev maf ma da) :
    cmdMasterLow (composeCmd d dev maf ma da) = ma.extractLsb' 0 8 := by
  apply BitVec.eq_of_getLsbD_eq
  intro i hi
  simp only [cmdMasterLow, BitVec.getLsbD_extractLsb', getLsbD_composeCmd]
  grind

@[simp] theorem cmdMasterHigh_composeCmd (d dev maf ma da) :
    cmdMasterHigh (composeCmd d dev maf ma da) = ma.extractLsb' 8 8 := by
  apply BitVec.eq_of_getLsbD_eq
  intro i hi
  simp only [cmdMasterHigh, BitVec.getLsbD_extractLsb', getLsbD_composeCmd]
  grind

@[simp] theorem cmdDeviceAddress_composeCmd (d dev maf ma da) :
    cmdDeviceAddress (composeCmd d dev maf ma da) = dev := by
  apply BitVec.eq_of_getLsbD_eq
  intro i hi
  simp only [cmdDeviceAddress, BitVec.getLsbD_extractLsb', getLsbD_composeCmd]
  grind

@[simp] theorem cmdMaf_composeCmd (d dev maf ma da) : cmdMaf (composeCmd d dev maf ma da) = maf := by
  simp only [cmdMaf, getLsbD_composeCmd]
  grind

@[simp] theorem cmdDirection_composeCmd (d dev maf ma da) : cmdDirection (composeCmd d dev maf ma da) = d := by
  simp only [cmdDirection, getLsbD_composeCmd]
  cases d <;> grind

/-! ## CSCWORD -/

/-- Every bit of a composed CSCWORD. -/
theorem getLsbD_composeCsc (lo : BitVec 8) (hi : BitVec 16) (lsb : Bool) (i : Nat) :
    (composeCsc lo hi lsb).getLsbD i =
      ((decide (i = 0) && lsb) || (decide (1 ≤ i) && lo.getLsbD (i - 1)) || (decide (9 ≤ i) && hi.getLsbD (i - 9))) := by
  have hl : (if lsb then 1#32 else 0#32).getLsbD i = (decide (i = 0) && lsb) := by
    cases lsb <;> simp [BitVec.getLsbD_one]
  simp only [composeCsc, BitVec.getLsbD_or, hl, BitVec.getLsbD_shiftLeft, BitVec.getLsbD_setWidth]
  grind

@[simp] theorem cscAddrLsb_composeCsc (lo hi lsb) : cscAddrLsb (composeCsc lo hi lsb) = lsb := by
  simp only [cscAddrLsb, getLsbD_composeCsc]
  grind

@[simp] theorem cscTimingLo_composeCsc (lo hi lsb) : cscTimingLo (composeCsc lo hi lsb) = lo := by
  apply BitVec.eq_of_getLsbD_eq
  intro i h
  simp only [cscTimingLo, BitVec.getLsbD_extractLsb', getLsbD_composeCsc]
  grind

@[simp] theorem cscTimingHi_composeCsc (lo hi lsb) : cscTimingHi (composeCsc lo hi lsb) = hi := by
  apply BitVec.eq_of_getLsbD_eq
  intro i h
  simp only [cscTimingHi, BitVec.getLsbD_extractLsb', getLsbD_composeCsc]
  grind

@[simp] theorem reservedClock_composeCsc (lo hi lsb) : reservedClock (composeCsc lo hi lsb) = none := by
  have h1 : cscReserved (composeCsc lo hi lsb) = 0#4 := by
    apply BitVec.eq_of_getLsbD_eq
    intro i h
    simp only [cscReserved, BitVec.getLsbD_extractLsb', getLsbD_composeCsc]
    grind
  have h2 : cscFlagBits (composeCsc lo hi lsb) = 0#3 := by
    apply BitVec.eq_of_getLsbD_eq
    intro i h
    simp only [cscFlagBits, BitVec.getLsbD_extractLsb', getLsbD_composeCsc]
    grind
  simp [reservedClock, h1, h2]

/-! ## Operands -/

@[simp] theorem joinAddr_split (a : TargetAddr) : joinAddr (addrDevice a) (addrLsb a) = a := by
  apply BitVec.eq_of_getLsbD_eq
  intro i hi
  simp [joinAddr, addrDevice, addrLsb]
  grind

@[simp] theorem addrDevice_joinAddr (dev : BitVec 6) (lsb : Bool) : addrDevice (joinAddr dev lsb) = dev := by
  apply BitVec.eq_of_getLsbD_eq
  intro i hi
  simp [joinAddr, addrDevice]
  grind

@[simp] theorem addrLsb_joinAddr (dev : BitVec 6) (lsb : Bool) : addrLsb (joinAddr dev lsb) = lsb := by
  cases lsb <;> simp [joinAddr, addrLsb] <;> grind

@[simp] theorem masterPlain_low (c : Byte) : (masterPlain c).extractLsb' 0 8 = c := by
  apply BitVec.eq_of_getLsbD_eq
  intro i hi
  simp [masterPlain]
  grind

@[simp] theorem masterPlain_high (c : Byte) : (masterPlain c).extractLsb' 8 8 = 0#8 := by
  apply BitVec.eq_of_getLsbD_eq
  intro i hi
  simp [masterPlain]

@[simp] theorem masterPacked_low (c : Byte) (p : BitVec 16) : (masterPacked c p).extractLsb' 0 8 = payloadLow p := by
  apply BitVec.eq_of_getLsbD_eq
  intro i hi
  simp [masterPacked, payloadLow]
  grind

@[simp] theorem masterPacked_high (c : Byte) (p : BitVec 16) : (masterPacked c p).extractLsb' 8 8 = c := by
  apply BitVec.eq_of_getLsbD_eq
  intro i hi
  simp [masterPacked, payloadLow]
  grind

/-- The packed sub-format is the command byte above the low payload byte (R96). -/
theorem masterPacked_eq (c : Byte) (p : BitVec 16) : masterPacked c p = c ++ payloadLow p := by
  apply BitVec.eq_of_getLsbD_eq
  intro i hi
  simp only [masterPacked, BitVec.getLsbD_or, BitVec.getLsbD_shiftLeft, BitVec.getLsbD_setWidth, BitVec.getLsbD_append]
  by_cases h : i < 8
  · simp [h, hi]
  · have hl : (payloadLow p).getLsbD i = false := BitVec.getLsbD_of_ge _ _ (by omega)
    simp [h, hi, hl]
    intro _; omega

@[simp] theorem payload_halves (p : BitVec 16) : payloadHigh p ++ payloadLow p = p := by
  apply BitVec.eq_of_getLsbD_eq
  intro i hi
  simp [payloadHigh, payloadLow]
  grind

/-! ## Bytes -/

@[simp] theorem wordOfBytes_bytes (w : Word) :
    wordOfBytes (w.extractLsb' 0 8) (w.extractLsb' 8 8) (w.extractLsb' 16 8) (w.extractLsb' 24 8) = w := by
  apply BitVec.eq_of_getLsbD_eq
  intro i hi
  simp [wordOfBytes]
  grind

/-- Reading a pair of words back from its bytes: a pair that decodes. -/
theorem decode_bytesOfPair_ok {c k : Word} {i : Instr} (h : decodeWords c k = .ok i) (rest : List Byte) :
    decode (bytesOfPair (c, k) ++ rest) = .ok (i, rest) := by
  simp [bytesOfPair, bytesOfWord, decode, h]

/-- Reading a pair of words back from its bytes: a pair with a reserved pattern. -/
theorem decode_bytesOfPair_error {c k : Word} {e : DecodeError} (h : decodeWords c k = .error e) (rest : List Byte) :
    decode (bytesOfPair (c, k) ++ rest) = .error e := by
  simp [bytesOfPair, bytesOfWord, decode, h]

/-! ## Words the encoder produces -/

/-- Everything `encodeRequest` can answer: the words of one of the three accepted shapes. -/
theorem encodeRequest_cases {lo : BitVec 8} {hi : BitVec 16} {r : Request} {c k : Word}
    (h : encodeRequest lo hi r = some (c, k)) :
    k = composeCsc lo hi (addrLsb r.addr) ∧
      ((r.width = .byte ∧ r.dir = .read ∧ c = composeCmd .read (addrDevice r.addr) false (masterPlain r.cmd) 0#8) ∨
       (r.width = .byte ∧ r.dir = .write ∧
          c = composeCmd .write (addrDevice r.addr) false (masterPlain r.cmd) (payloadLow r.payload)) ∨
       (r.width = .word ∧ r.dir = .write ∧
          c = composeCmd .write (addrDevice r.addr) true (masterPacked r.cmd r.payload) (payloadHigh r.payload))) := by
  obtain ⟨a, d, cmd, w, p⟩ := r
  cases w <;> cases d <;> simp only [encodeRequest, Option.some.injEq, Prod.mk.injEq, reduceCtorEq] at h <;>
    obtain ⟨rfl, rfl⟩ := h <;> simp

/-- The words the encoder produces are none of the reserved ones (R104, R105). -/
theorem encodeRequest_unreserved {lo : BitVec 8} {hi : BitVec 16} {r : Request} {c k : Word}
    (h : encodeRequest lo hi r = some (c, k)) : reservedCommand c = none ∧ reservedClock k = none := by
  obtain ⟨rfl, ⟨-, -, rfl⟩ | ⟨-, -, rfl⟩ | ⟨-, -, rfl⟩⟩ := encodeRequest_cases h <;> simp [reservedCommand]

/-- The direction bit of a word the encoder produces. -/
theorem encodeRequest_direction {lo : BitVec 8} {hi : BitVec 16} {r : Request} {c k : Word}
    (h : encodeRequest lo hi r = some (c, k)) : cmdDirection c = r.dir := by
  obtain ⟨rfl, ⟨-, hd, rfl⟩ | ⟨-, hd, rfl⟩ | ⟨-, hd, rfl⟩⟩ := encodeRequest_cases h <;> simp [hd]

/-! ## The operation map -/

@[simp] theorem request_instr (r : Request) : r.instr.request = some r := by
  obtain ⟨a, d, cmd, w, p⟩ := r
  cases w <;> cases d <;> rfl

@[simp] theorem line_decode (i : Instr) : i.line.decode = .ok i := by
  cases i <;> rfl

/-! ## Masks -/

/-- A masked word is zero exactly when every bit under the mask is clear. -/
theorem and_mask_eq_zero {n : Nat} {w m : BitVec n} :
    w &&& m = 0#n ↔ ∀ i, m.getLsbD i = true → w.getLsbD i = false := by
  constructor
  · intro h i hm
    have := congrArg (·.getLsbD i) h
    simpa [hm] using this
  · intro h
    apply BitVec.eq_of_getLsbD_eq
    intro i _
    cases hm : m.getLsbD i <;> simp [hm, h i]

/-- A field is zero exactly when each of its bits is clear. -/
theorem field_eq_zero {w : Word} {p l : Nat} :
    w.extractLsb' p l = 0#l ↔ ∀ i, i < l → w.getLsbD (p + i) = false := by
  constructor
  · intro h i hi
    have := congrArg (·.getLsbD i) h
    simpa [hi] using this
  · intro h
    apply BitVec.eq_of_getLsbD_eq
    intro i hi
    simp [hi, h i hi]

/-- The bits that a mask of the shape of R104 and R105 selects, a run of ones. -/
theorem and_run_eq_zero {w : Word} {p l : Nat} {m : Word} (h : p + l ≤ 32)
    (hm : m = (BitVec.allOnes l).setWidth 32 <<< p) :
    w &&& m = 0#32 ↔ w.extractLsb' p l = 0#l := by
  rw [and_mask_eq_zero, field_eq_zero, hm]
  constructor
  · intro g i hi
    apply g
    simp [hi]; omega
  · intro g i hi
    simp at hi
    have := g (i - p) (by omega)
    rwa [show p + (i - p) = i by omega] at this

/-- R105 by its mask: a companion is unreserved exactly when its bits 31:25 are clear. -/
theorem reservedClock_eq_none {k : Word} : reservedClock k = none ↔ k &&& 0xFE000000#32 = 0#32 := by
  rw [and_run_eq_zero (p := 25) (l := 7) (by decide) (by decide), field_eq_zero]
  have : reservedClock k = none ↔ cscReserved k = 0#4 ∧ cscFlagBits k = 0#3 := by
    unfold reservedClock; split <;> [simp [*]; (split <;> simp_all)]
  have h4 : cscReserved k = 0#4 ↔ _ := field_eq_zero
  have h3 : cscFlagBits k = 0#3 ↔ _ := field_eq_zero
  rw [this, h4, h3]
  constructor
  · intro ⟨a, b⟩ i hi
    by_cases h : i < 4
    · exact a i h
    · have := b (i - 4) (by omega)
      rwa [show 29 + (i - 4) = 25 + i by omega] at this
  · intro a
    exact ⟨fun i hi => a i (by omega), fun i hi => by have := a (i + 4) (by omega); rwa [show 25 + (i + 4) = 29 + i by omega] at this⟩

end Sys2Proof
end

