-- ==== Sys2Proof/Laws/State.lean ====
section
/-! SUPPORT. For each named update of the state, what it does to each field: one lemma per field, so that no proof unfolds
an update. -/

namespace Sys2Proof.Machine

/-! ## `writeCsc` -/

@[simp] theorem writeCsc_cfg (v : Word) (s : State) : (writeCsc v s).cfg = s.cfg := rfl
@[simp] theorem writeCsc_op (v : Word) (s : State) : (writeCsc v s).op = s.op := rfl
@[simp] theorem writeCsc_cmdVal (v : Word) (s : State) : (writeCsc v s).cmdVal = s.cmdVal := rfl
@[simp] theorem writeCsc_cscVal (v : Word) (s : State) : (writeCsc v s).cscVal = s.cscVal := rfl
@[simp] theorem writeCsc_seq (v : Word) (s : State) : (writeCsc v s).seq = s.seq := rfl
@[simp] theorem writeCsc_pollCount (v : Word) (s : State) : (writeCsc v s).pollCount = s.pollCount := rfl
@[simp] theorem writeCsc_lastStatus (v : Word) (s : State) : (writeCsc v s).lastStatus = s.lastStatus := rfl
@[simp] theorem writeCsc_res (v : Word) (s : State) : (writeCsc v s).res = s.res := rfl
@[simp] theorem writeCsc_initialised (v : Word) (s : State) : (writeCsc v s).initialised = s.initialised := rfl
@[simp] theorem writeCsc_cmd (v : Word) (s : State) : (writeCsc v s).cmd = s.cmd := rfl
@[simp] theorem writeCsc_prescale (v : Word) (s : State) : (writeCsc v s).prescale = s.prescale := rfl
@[simp] theorem writeCsc_cscConfig (v : Word) (s : State) : (writeCsc v s).cscConfig = v.extractLsb' 0 29 := rfl
@[simp] theorem writeCsc_cscFlags (v : Word) (s : State) :
    (writeCsc v s).cscFlags = Config.envFlags s.history s.envDraws := rfl
@[simp] theorem writeCsc_bft (v : Word) (s : State) : (writeCsc v s).bft = s.bft := rfl
@[simp] theorem writeCsc_inflight (v : Word) (s : State) : (writeCsc v s).inflight = s.inflight := rfl
@[simp] theorem writeCsc_trace (v : Word) (s : State) : (writeCsc v s).trace = s.trace ++ [.write cscOff v] := rfl
@[simp] theorem writeCsc_program (v : Word) (s : State) : (writeCsc v s).program = s.program := rfl
@[simp] theorem writeCsc_reply (v : Word) (s : State) : (writeCsc v s).reply = s.reply := rfl
@[simp] theorem writeCsc_envScript (v : Word) (s : State) : (writeCsc v s).envScript = s.envScript := rfl
@[simp] theorem writeCsc_envDraws (v : Word) (s : State) : (writeCsc v s).envDraws = s.envDraws + 1 := rfl

/-! ## `writeCmd` -/

@[simp] theorem writeCmd_cfg (v : Word) (s : State) : (writeCmd v s).cfg = s.cfg := rfl
@[simp] theorem writeCmd_op (v : Word) (s : State) : (writeCmd v s).op = s.op := rfl
@[simp] theorem writeCmd_cmdVal (v : Word) (s : State) : (writeCmd v s).cmdVal = s.cmdVal := rfl
@[simp] theorem writeCmd_cscVal (v : Word) (s : State) : (writeCmd v s).cscVal = s.cscVal := rfl
@[simp] theorem writeCmd_seq (v : Word) (s : State) : (writeCmd v s).seq = s.seq := rfl
@[simp] theorem writeCmd_pollCount (v : Word) (s : State) : (writeCmd v s).pollCount = s.pollCount := rfl
@[simp] theorem writeCmd_lastStatus (v : Word) (s : State) : (writeCmd v s).lastStatus = s.lastStatus := rfl
@[simp] theorem writeCmd_res (v : Word) (s : State) : (writeCmd v s).res = s.res := rfl
@[simp] theorem writeCmd_initialised (v : Word) (s : State) : (writeCmd v s).initialised = s.initialised := rfl
@[simp] theorem writeCmd_cmd (v : Word) (s : State) : (writeCmd v s).cmd = v := rfl
@[simp] theorem writeCmd_prescale (v : Word) (s : State) : (writeCmd v s).prescale = s.prescale := rfl
@[simp] theorem writeCmd_cscConfig (v : Word) (s : State) : (writeCmd v s).cscConfig = s.cscConfig := rfl
@[simp] theorem writeCmd_cscFlags (v : Word) (s : State) : (writeCmd v s).cscFlags = s.cscFlags := rfl
@[simp] theorem writeCmd_bft (v : Word) (s : State) : (writeCmd v s).bft = s.bft := rfl
@[simp] theorem writeCmd_inflight (v : Word) (s : State) :
    (writeCmd v s).inflight = some (sampleInflight v s.cscConfig) := rfl
@[simp] theorem writeCmd_trace (v : Word) (s : State) : (writeCmd v s).trace = s.trace ++ [.write cmdOff v] := rfl
@[simp] theorem writeCmd_program (v : Word) (s : State) : (writeCmd v s).program = s.program := rfl
@[simp] theorem writeCmd_reply (v : Word) (s : State) : (writeCmd v s).reply = s.reply := rfl
@[simp] theorem writeCmd_envScript (v : Word) (s : State) : (writeCmd v s).envScript = s.envScript := rfl
@[simp] theorem writeCmd_envDraws (v : Word) (s : State) : (writeCmd v s).envDraws = s.envDraws := rfl

/-! ## `writePrescale` -/

@[simp] theorem writePrescale_cfg (v : Word) (s : State) : (writePrescale v s).cfg = s.cfg := rfl
@[simp] theorem writePrescale_op (v : Word) (s : State) : (writePrescale v s).op = s.op := rfl
@[simp] theorem writePrescale_cmdVal (v : Word) (s : State) : (writePrescale v s).cmdVal = s.cmdVal := rfl
@[simp] theorem writePrescale_cscVal (v : Word) (s : State) : (writePrescale v s).cscVal = s.cscVal := rfl
@[simp] theorem writePrescale_seq (v : Word) (s : State) : (writePrescale v s).seq = s.seq := rfl
@[simp] theorem writePrescale_pollCount (v : Word) (s : State) : (writePrescale v s).pollCount = s.pollCount := rfl
@[simp] theorem writePrescale_lastStatus (v : Word) (s : State) : (writePrescale v s).lastStatus = s.lastStatus := rfl
@[simp] theorem writePrescale_res (v : Word) (s : State) : (writePrescale v s).res = s.res := rfl
@[simp] theorem writePrescale_initialised (v : Word) (s : State) :
    (writePrescale v s).initialised = s.initialised := rfl
@[simp] theorem writePrescale_cmd (v : Word) (s : State) : (writePrescale v s).cmd = s.cmd := rfl
@[simp] theorem writePrescale_prescale (v : Word) (s : State) : (writePrescale v s).prescale = v := rfl
@[simp] theorem writePrescale_cscConfig (v : Word) (s : State) : (writePrescale v s).cscConfig = s.cscConfig := rfl
@[simp] theorem writePrescale_cscFlags (v : Word) (s : State) : (writePrescale v s).cscFlags = s.cscFlags := rfl
@[simp] theorem writePrescale_bft (v : Word) (s : State) : (writePrescale v s).bft = s.bft := rfl
@[simp] theorem writePrescale_inflight (v : Word) (s : State) : (writePrescale v s).inflight = s.inflight := rfl
@[simp] theorem writePrescale_trace (v : Word) (s : State) :
    (writePrescale v s).trace = s.trace ++ [.write prescaleOff v] := rfl
@[simp] theorem writePrescale_program (v : Word) (s : State) : (writePrescale v s).program = s.program := rfl
@[simp] theorem writePrescale_reply (v : Word) (s : State) : (writePrescale v s).reply = s.reply := rfl
@[simp] theorem writePrescale_envScript (v : Word) (s : State) : (writePrescale v s).envScript = s.envScript := rfl
@[simp] theorem writePrescale_envDraws (v : Word) (s : State) : (writePrescale v s).envDraws = s.envDraws := rfl

/-! ## `readCsc` -/

@[simp] theorem readCsc_cfg (s : State) : (readCsc s).cfg = s.cfg := rfl
@[simp] theorem readCsc_op (s : State) : (readCsc s).op = s.op := rfl
@[simp] theorem readCsc_cmdVal (s : State) : (readCsc s).cmdVal = s.cmdVal := rfl
@[simp] theorem readCsc_cscVal (s : State) : (readCsc s).cscVal = s.cscVal := rfl
@[simp] theorem readCsc_seq (s : State) : (readCsc s).seq = s.seq := rfl
@[simp] theorem readCsc_pollCount (s : State) : (readCsc s).pollCount = s.pollCount := rfl
@[simp] theorem readCsc_lastStatus (s : State) : (readCsc s).lastStatus = s.lastStatus := rfl
@[simp] theorem readCsc_res (s : State) : (readCsc s).res = s.res := rfl
@[simp] theorem readCsc_initialised (s : State) : (readCsc s).initialised = s.initialised := rfl
@[simp] theorem readCsc_cmd (s : State) : (readCsc s).cmd = s.cmd := rfl
@[simp] theorem readCsc_prescale (s : State) : (readCsc s).prescale = s.prescale := rfl
@[simp] theorem readCsc_cscConfig (s : State) : (readCsc s).cscConfig = s.cscConfig := rfl
@[simp] theorem readCsc_cscFlags (s : State) : (readCsc s).cscFlags = cscFlagBits (s.envAnswer cscOff) := rfl
@[simp] theorem readCsc_bft (s : State) : (readCsc s).bft = s.bft := rfl
@[simp] theorem readCsc_inflight (s : State) :
    (readCsc s).inflight = if resolved (s.envAnswer cscOff) then none else s.inflight := rfl
@[simp] theorem readCsc_trace (s : State) : (readCsc s).trace = s.trace ++ [.read cscOff (s.envAnswer cscOff)] := rfl
@[simp] theorem readCsc_program (s : State) : (readCsc s).program = s.program := rfl
@[simp] theorem readCsc_reply (s : State) : (readCsc s).reply = s.reply := rfl
@[simp] theorem readCsc_envScript (s : State) : (readCsc s).envScript = s.envScript.tail := rfl
@[simp] theorem readCsc_envDraws (s : State) : (readCsc s).envDraws = s.envDraws + 1 := rfl

/-! ## `readCmd` -/

@[simp] theorem readCmd_cfg (s : State) : (readCmd s).cfg = s.cfg := rfl
@[simp] theorem readCmd_op (s : State) : (readCmd s).op = s.op := rfl
@[simp] theorem readCmd_cmdVal (s : State) : (readCmd s).cmdVal = s.cmdVal := rfl
@[simp] theorem readCmd_cscVal (s : State) : (readCmd s).cscVal = s.cscVal := rfl
@[simp] theorem readCmd_seq (s : State) : (readCmd s).seq = s.seq := rfl
@[simp] theorem readCmd_pollCount (s : State) : (readCmd s).pollCount = s.pollCount := rfl
@[simp] theorem readCmd_lastStatus (s : State) : (readCmd s).lastStatus = s.lastStatus := rfl
@[simp] theorem readCmd_res (s : State) : (readCmd s).res = s.res := rfl
@[simp] theorem readCmd_initialised (s : State) : (readCmd s).initialised = s.initialised := rfl
@[simp] theorem readCmd_cmd (s : State) :
    (readCmd s).cmd = s.cmd.extractLsb' 8 24 ++ cmdData (s.envAnswer cmdOff) := rfl
@[simp] theorem readCmd_prescale (s : State) : (readCmd s).prescale = s.prescale := rfl
@[simp] theorem readCmd_cscConfig (s : State) : (readCmd s).cscConfig = s.cscConfig := rfl
@[simp] theorem readCmd_cscFlags (s : State) : (readCmd s).cscFlags = s.cscFlags := rfl
@[simp] theorem readCmd_bft (s : State) : (readCmd s).bft = s.bft := rfl
@[simp] theorem readCmd_inflight (s : State) : (readCmd s).inflight = s.inflight := rfl
@[simp] theorem readCmd_trace (s : State) : (readCmd s).trace = s.trace ++ [.read cmdOff (s.envAnswer cmdOff)] := rfl
@[simp] theorem readCmd_program (s : State) : (readCmd s).program = s.program := rfl
@[simp] theorem readCmd_reply (s : State) : (readCmd s).reply = s.reply := rfl
@[simp] theorem readCmd_envScript (s : State) : (readCmd s).envScript = s.envScript.tail := rfl
@[simp] theorem readCmd_envDraws (s : State) : (readCmd s).envDraws = s.envDraws + 1 := rfl

/-! ## `sleep` -/

@[simp] theorem sleep_cfg (s : State) : (sleep s).cfg = s.cfg := rfl
@[simp] theorem sleep_op (s : State) : (sleep s).op = s.op := rfl
@[simp] theorem sleep_cmdVal (s : State) : (sleep s).cmdVal = s.cmdVal := rfl
@[simp] theorem sleep_cscVal (s : State) : (sleep s).cscVal = s.cscVal := rfl
@[simp] theorem sleep_seq (s : State) : (sleep s).seq = s.seq := rfl
@[simp] theorem sleep_pollCount (s : State) : (sleep s).pollCount = s.pollCount := rfl
@[simp] theorem sleep_lastStatus (s : State) : (sleep s).lastStatus = s.lastStatus := rfl
@[simp] theorem sleep_res (s : State) : (sleep s).res = s.res := rfl
@[simp] theorem sleep_initialised (s : State) : (sleep s).initialised = s.initialised := rfl
@[simp] theorem sleep_cmd (s : State) : (sleep s).cmd = s.cmd := rfl
@[simp] theorem sleep_prescale (s : State) : (sleep s).prescale = s.prescale := rfl
@[simp] theorem sleep_cscConfig (s : State) : (sleep s).cscConfig = s.cscConfig := rfl
@[simp] theorem sleep_cscFlags (s : State) : (sleep s).cscFlags = s.cscFlags := rfl
@[simp] theorem sleep_bft (s : State) : (sleep s).bft = s.bft := rfl
@[simp] theorem sleep_inflight (s : State) : (sleep s).inflight = s.inflight := rfl
@[simp] theorem sleep_trace (s : State) :
    (sleep s).trace = s.trace ++ [.sleep s.cfg.sleepMinUs s.cfg.sleepMaxUs] := rfl
@[simp] theorem sleep_program (s : State) : (sleep s).program = s.program := rfl
@[simp] theorem sleep_reply (s : State) : (sleep s).reply = s.reply := rfl
@[simp] theorem sleep_envScript (s : State) : (sleep s).envScript = s.envScript := rfl
@[simp] theorem sleep_envDraws (s : State) : (sleep s).envDraws = s.envDraws := rfl

/-! ## `settleInflight` -/

@[simp] theorem settleInflight_cfg (s : State) : (settleInflight s).cfg = s.cfg := rfl
@[simp] theorem settleInflight_op (s : State) : (settleInflight s).op = s.op := rfl
@[simp] theorem settleInflight_cmdVal (s : State) : (settleInflight s).cmdVal = s.cmdVal := rfl
@[simp] theorem settleInflight_cscVal (s : State) : (settleInflight s).cscVal = s.cscVal := rfl
@[simp] theorem settleInflight_seq (s : State) : (settleInflight s).seq = s.seq := rfl
@[simp] theorem settleInflight_pollCount (s : State) : (settleInflight s).pollCount = s.pollCount := rfl
@[simp] theorem settleInflight_lastStatus (s : State) : (settleInflight s).lastStatus = s.lastStatus := rfl
@[simp] theorem settleInflight_res (s : State) : (settleInflight s).res = s.res := rfl
@[simp] theorem settleInflight_initialised (s : State) : (settleInflight s).initialised = s.initialised := rfl
@[simp] theorem settleInflight_cmd (s : State) : (settleInflight s).cmd = s.cmd := rfl
@[simp] theorem settleInflight_prescale (s : State) : (settleInflight s).prescale = s.prescale := rfl
@[simp] theorem settleInflight_cscConfig (s : State) : (settleInflight s).cscConfig = s.cscConfig := rfl
@[simp] theorem settleInflight_cscFlags (s : State) : (settleInflight s).cscFlags = s.cscFlags := rfl
@[simp] theorem settleInflight_bft (s : State) : (settleInflight s).bft = s.bft := rfl
@[simp] theorem settleInflight_inflight (s : State) :
    (settleInflight s).inflight = if Config.envResolvesUnseen s.history s.envDraws then none else s.inflight := rfl
@[simp] theorem settleInflight_trace (s : State) : (settleInflight s).trace = s.trace := rfl
@[simp] theorem settleInflight_program (s : State) : (settleInflight s).program = s.program := rfl
@[simp] theorem settleInflight_reply (s : State) : (settleInflight s).reply = s.reply := rfl
@[simp] theorem settleInflight_envScript (s : State) : (settleInflight s).envScript = s.envScript := rfl
@[simp] theorem settleInflight_envDraws (s : State) : (settleInflight s).envDraws = s.envDraws + 1 := rfl

/-! ## `latch` -/

@[simp] theorem latch_cfg (r : Request) (c k : Word) (s : State) : (latch r c k s).cfg = s.cfg := rfl
@[simp] theorem latch_op (r : Request) (c k : Word) (s : State) : (latch r c k s).op = some r := rfl
@[simp] theorem latch_cmdVal (r : Request) (c k : Word) (s : State) : (latch r c k s).cmdVal = some c := rfl
@[simp] theorem latch_cscVal (r : Request) (c k : Word) (s : State) : (latch r c k s).cscVal = some k := rfl
@[simp] theorem latch_seq (r : Request) (c k : Word) (s : State) : (latch r c k s).seq = s.seq := rfl
@[simp] theorem latch_pollCount (r : Request) (c k : Word) (s : State) :
    (latch r c k s).pollCount = s.pollCount := rfl
@[simp] theorem latch_lastStatus (r : Request) (c k : Word) (s : State) :
    (latch r c k s).lastStatus = s.lastStatus := rfl
@[simp] theorem latch_res (r : Request) (c k : Word) (s : State) : (latch r c k s).res = s.res := rfl
@[simp] theorem latch_initialised (r : Request) (c k : Word) (s : State) :
    (latch r c k s).initialised = s.initialised := rfl
@[simp] theorem latch_cmd (r : Request) (c k : Word) (s : State) : (latch r c k s).cmd = s.cmd := rfl
@[simp] theorem latch_prescale (r : Request) (c k : Word) (s : State) : (latch r c k s).prescale = s.prescale := rfl
@[simp] theorem latch_cscConfig (r : Request) (c k : Word) (s : State) :
    (latch r c k s).cscConfig = s.cscConfig := rfl
@[simp] theorem latch_cscFlags (r : Request) (c k : Word) (s : State) : (latch r c k s).cscFlags = s.cscFlags := rfl
@[simp] theorem latch_bft (r : Request) (c k : Word) (s : State) : (latch r c k s).bft = s.bft := rfl
@[simp] theorem latch_inflight (r : Request) (c k : Word) (s : State) : (latch r c k s).inflight = s.inflight := rfl
@[simp] theorem latch_trace (r : Request) (c k : Word) (s : State) : (latch r c k s).trace = s.trace := rfl
@[simp] theorem latch_program (r : Request) (c k : Word) (s : State) : (latch r c k s).program = s.program := rfl
@[simp] theorem latch_reply (r : Request) (c k : Word) (s : State) : (latch r c k s).reply = s.reply := rfl
@[simp] theorem latch_envScript (r : Request) (c k : Word) (s : State) :
    (latch r c k s).envScript = s.envScript := rfl
@[simp] theorem latch_envDraws (r : Request) (c k : Word) (s : State) : (latch r c k s).envDraws = s.envDraws := rfl

/-! ## `deliver` -/

@[simp] theorem deliver_cfg (r : TransferResult) (s : State) : (deliver r s).cfg = s.cfg := rfl
@[simp] theorem deliver_op (r : TransferResult) (s : State) : (deliver r s).op = s.op := rfl
@[simp] theorem deliver_cmdVal (r : TransferResult) (s : State) : (deliver r s).cmdVal = s.cmdVal := rfl
@[simp] theorem deliver_cscVal (r : TransferResult) (s : State) : (deliver r s).cscVal = s.cscVal := rfl
@[simp] theorem deliver_seq (r : TransferResult) (s : State) : (deliver r s).seq = s.seq := rfl
@[simp] theorem deliver_pollCount (r : TransferResult) (s : State) : (deliver r s).pollCount = s.pollCount := rfl
@[simp] theorem deliver_lastStatus (r : TransferResult) (s : State) : (deliver r s).lastStatus = s.lastStatus := rfl
@[simp] theorem deliver_res (r : TransferResult) (s : State) : (deliver r s).res = some r := rfl
@[simp] theorem deliver_initialised (r : TransferResult) (s : State) :
    (deliver r s).initialised = s.initialised := rfl
@[simp] theorem deliver_cmd (r : TransferResult) (s : State) : (deliver r s).cmd = s.cmd := rfl
@[simp] theorem deliver_prescale (r : TransferResult) (s : State) : (deliver r s).prescale = s.prescale := rfl
@[simp] theorem deliver_cscConfig (r : TransferResult) (s : State) : (deliver r s).cscConfig = s.cscConfig := rfl
@[simp] theorem deliver_cscFlags (r : TransferResult) (s : State) : (deliver r s).cscFlags = s.cscFlags := rfl
@[simp] theorem deliver_bft (r : TransferResult) (s : State) : (deliver r s).bft = s.bft := rfl
@[simp] theorem deliver_inflight (r : TransferResult) (s : State) : (deliver r s).inflight = s.inflight := rfl
@[simp] theorem deliver_trace (r : TransferResult) (s : State) : (deliver r s).trace = s.trace := rfl
@[simp] theorem deliver_program (r : TransferResult) (s : State) : (deliver r s).program = s.program := rfl
@[simp] theorem deliver_reply (r : TransferResult) (s : State) : (deliver r s).reply = some (.result r) := rfl
@[simp] theorem deliver_envScript (r : TransferResult) (s : State) : (deliver r s).envScript = s.envScript := rfl
@[simp] theorem deliver_envDraws (r : TransferResult) (s : State) : (deliver r s).envDraws = s.envDraws := rfl

/-! ## `finish` -/

@[simp] theorem finish_cfg (r : TransferResult) (s : State) : (finish r s).cfg = s.cfg := rfl
@[simp] theorem finish_op (r : TransferResult) (s : State) : (finish r s).op = none := rfl
@[simp] theorem finish_cmdVal (r : TransferResult) (s : State) : (finish r s).cmdVal = none := rfl
@[simp] theorem finish_cscVal (r : TransferResult) (s : State) : (finish r s).cscVal = none := rfl
@[simp] theorem finish_seq (r : TransferResult) (s : State) : (finish r s).seq = .idle := rfl
@[simp] theorem finish_pollCount (r : TransferResult) (s : State) : (finish r s).pollCount = s.pollCount := rfl
@[simp] theorem finish_lastStatus (r : TransferResult) (s : State) : (finish r s).lastStatus = none := rfl
@[simp] theorem finish_res (r : TransferResult) (s : State) : (finish r s).res = some r := rfl
@[simp] theorem finish_initialised (r : TransferResult) (s : State) : (finish r s).initialised = s.initialised := rfl
@[simp] theorem finish_cmd (r : TransferResult) (s : State) : (finish r s).cmd = s.cmd := rfl
@[simp] theorem finish_prescale (r : TransferResult) (s : State) : (finish r s).prescale = s.prescale := rfl
@[simp] theorem finish_cscConfig (r : TransferResult) (s : State) : (finish r s).cscConfig = s.cscConfig := rfl
@[simp] theorem finish_cscFlags (r : TransferResult) (s : State) : (finish r s).cscFlags = s.cscFlags := rfl
@[simp] theorem finish_bft (r : TransferResult) (s : State) : (finish r s).bft = s.bft := rfl
@[simp] theorem finish_inflight (r : TransferResult) (s : State) : (finish r s).inflight = s.inflight := rfl
@[simp] theorem finish_trace (r : TransferResult) (s : State) : (finish r s).trace = s.trace := rfl
@[simp] theorem finish_program (r : TransferResult) (s : State) : (finish r s).program = s.program := rfl
@[simp] theorem finish_reply (r : TransferResult) (s : State) : (finish r s).reply = some (.result r) := rfl
@[simp] theorem finish_envScript (r : TransferResult) (s : State) : (finish r s).envScript = s.envScript := rfl
@[simp] theorem finish_envDraws (r : TransferResult) (s : State) : (finish r s).envDraws = s.envDraws := rfl

/-! ## `enterPolling` -/

@[simp] theorem enterPolling_cfg (s : State) : (enterPolling s).cfg = s.cfg := rfl
@[simp] theorem enterPolling_op (s : State) : (enterPolling s).op = s.op := rfl
@[simp] theorem enterPolling_cmdVal (s : State) : (enterPolling s).cmdVal = s.cmdVal := rfl
@[simp] theorem enterPolling_cscVal (s : State) : (enterPolling s).cscVal = s.cscVal := rfl
@[simp] theorem enterPolling_seq (s : State) : (enterPolling s).seq = .polling := rfl
@[simp] theorem enterPolling_pollCount (s : State) : (enterPolling s).pollCount = 0 := rfl
@[simp] theorem enterPolling_lastStatus (s : State) : (enterPolling s).lastStatus = s.lastStatus := rfl
@[simp] theorem enterPolling_res (s : State) : (enterPolling s).res = s.res := rfl
@[simp] theorem enterPolling_initialised (s : State) : (enterPolling s).initialised = s.initialised := rfl
@[simp] theorem enterPolling_cmd (s : State) : (enterPolling s).cmd = s.cmd := rfl
@[simp] theorem enterPolling_prescale (s : State) : (enterPolling s).prescale = s.prescale := rfl
@[simp] theorem enterPolling_cscConfig (s : State) : (enterPolling s).cscConfig = s.cscConfig := rfl
@[simp] theorem enterPolling_cscFlags (s : State) : (enterPolling s).cscFlags = s.cscFlags := rfl
@[simp] theorem enterPolling_bft (s : State) : (enterPolling s).bft = s.bft := rfl
@[simp] theorem enterPolling_inflight (s : State) : (enterPolling s).inflight = s.inflight := rfl
@[simp] theorem enterPolling_trace (s : State) : (enterPolling s).trace = s.trace := rfl
@[simp] theorem enterPolling_program (s : State) : (enterPolling s).program = s.program := rfl
@[simp] theorem enterPolling_reply (s : State) : (enterPolling s).reply = s.reply := rfl
@[simp] theorem enterPolling_envScript (s : State) : (enterPolling s).envScript = s.envScript := rfl
@[simp] theorem enterPolling_envDraws (s : State) : (enterPolling s).envDraws = s.envDraws := rfl

/-! ## `countPoll` -/

@[simp] theorem countPoll_cfg (w : Word) (s : State) : (countPoll w s).cfg = s.cfg := rfl
@[simp] theorem countPoll_op (w : Word) (s : State) : (countPoll w s).op = s.op := rfl
@[simp] theorem countPoll_cmdVal (w : Word) (s : State) : (countPoll w s).cmdVal = s.cmdVal := rfl
@[simp] theorem countPoll_cscVal (w : Word) (s : State) : (countPoll w s).cscVal = s.cscVal := rfl
@[simp] theorem countPoll_seq (w : Word) (s : State) : (countPoll w s).seq = s.seq := rfl
@[simp] theorem countPoll_pollCount (w : Word) (s : State) : (countPoll w s).pollCount = s.pollCount + 1 := rfl
@[simp] theorem countPoll_lastStatus (w : Word) (s : State) : (countPoll w s).lastStatus = some w := rfl
@[simp] theorem countPoll_res (w : Word) (s : State) : (countPoll w s).res = s.res := rfl
@[simp] theorem countPoll_initialised (w : Word) (s : State) : (countPoll w s).initialised = s.initialised := rfl
@[simp] theorem countPoll_cmd (w : Word) (s : State) : (countPoll w s).cmd = s.cmd := rfl
@[simp] theorem countPoll_prescale (w : Word) (s : State) : (countPoll w s).prescale = s.prescale := rfl
@[simp] theorem countPoll_cscConfig (w : Word) (s : State) : (countPoll w s).cscConfig = s.cscConfig := rfl
@[simp] theorem countPoll_cscFlags (w : Word) (s : State) : (countPoll w s).cscFlags = s.cscFlags := rfl
@[simp] theorem countPoll_bft (w : Word) (s : State) : (countPoll w s).bft = s.bft := rfl
@[simp] theorem countPoll_inflight (w : Word) (s : State) : (countPoll w s).inflight = s.inflight := rfl
@[simp] theorem countPoll_trace (w : Word) (s : State) : (countPoll w s).trace = s.trace := rfl
@[simp] theorem countPoll_program (w : Word) (s : State) : (countPoll w s).program = s.program := rfl
@[simp] theorem countPoll_reply (w : Word) (s : State) : (countPoll w s).reply = s.reply := rfl
@[simp] theorem countPoll_envScript (w : Word) (s : State) : (countPoll w s).envScript = s.envScript := rfl
@[simp] theorem countPoll_envDraws (w : Word) (s : State) : (countPoll w s).envDraws = s.envDraws := rfl

/-! ## `setSeq` -/

@[simp] theorem setSeq_cfg (q : Seq) (s : State) : (setSeq q s).cfg = s.cfg := rfl
@[simp] theorem setSeq_op (q : Seq) (s : State) : (setSeq q s).op = s.op := rfl
@[simp] theorem setSeq_cmdVal (q : Seq) (s : State) : (setSeq q s).cmdVal = s.cmdVal := rfl
@[simp] theorem setSeq_cscVal (q : Seq) (s : State) : (setSeq q s).cscVal = s.cscVal := rfl
@[simp] theorem setSeq_seq (q : Seq) (s : State) : (setSeq q s).seq = q := rfl
@[simp] theorem setSeq_pollCount (q : Seq) (s : State) : (setSeq q s).pollCount = s.pollCount := rfl
@[simp] theorem setSeq_lastStatus (q : Seq) (s : State) : (setSeq q s).lastStatus = s.lastStatus := rfl
@[simp] theorem setSeq_res (q : Seq) (s : State) : (setSeq q s).res = s.res := rfl
@[simp] theorem setSeq_initialised (q : Seq) (s : State) : (setSeq q s).initialised = s.initialised := rfl
@[simp] theorem setSeq_cmd (q : Seq) (s : State) : (setSeq q s).cmd = s.cmd := rfl
@[simp] theorem setSeq_prescale (q : Seq) (s : State) : (setSeq q s).prescale = s.prescale := rfl
@[simp] theorem setSeq_cscConfig (q : Seq) (s : State) : (setSeq q s).cscConfig = s.cscConfig := rfl
@[simp] theorem setSeq_cscFlags (q : Seq) (s : State) : (setSeq q s).cscFlags = s.cscFlags := rfl
@[simp] theorem setSeq_bft (q : Seq) (s : State) : (setSeq q s).bft = s.bft := rfl
@[simp] theorem setSeq_inflight (q : Seq) (s : State) : (setSeq q s).inflight = s.inflight := rfl
@[simp] theorem setSeq_trace (q : Seq) (s : State) : (setSeq q s).trace = s.trace := rfl
@[simp] theorem setSeq_program (q : Seq) (s : State) : (setSeq q s).program = s.program := rfl
@[simp] theorem setSeq_reply (q : Seq) (s : State) : (setSeq q s).reply = s.reply := rfl
@[simp] theorem setSeq_envScript (q : Seq) (s : State) : (setSeq q s).envScript = s.envScript := rfl
@[simp] theorem setSeq_envDraws (q : Seq) (s : State) : (setSeq q s).envDraws = s.envDraws := rfl

/-! ## `bringUp` -/

@[simp] theorem bringUp_cfg (s : State) : (bringUp s).cfg = s.cfg := rfl
@[simp] theorem bringUp_op (s : State) : (bringUp s).op = s.op := rfl
@[simp] theorem bringUp_cmdVal (s : State) : (bringUp s).cmdVal = s.cmdVal := rfl
@[simp] theorem bringUp_cscVal (s : State) : (bringUp s).cscVal = s.cscVal := rfl
@[simp] theorem bringUp_seq (s : State) : (bringUp s).seq = s.seq := rfl
@[simp] theorem bringUp_pollCount (s : State) : (bringUp s).pollCount = s.pollCount := rfl
@[simp] theorem bringUp_lastStatus (s : State) : (bringUp s).lastStatus = s.lastStatus := rfl
@[simp] theorem bringUp_res (s : State) : (bringUp s).res = s.res := rfl
@[simp] theorem bringUp_initialised (s : State) : (bringUp s).initialised = true := rfl
@[simp] theorem bringUp_cmd (s : State) : (bringUp s).cmd = s.cmd := rfl
@[simp] theorem bringUp_prescale (s : State) : (bringUp s).prescale = s.cfg.prescale400k := rfl
@[simp] theorem bringUp_cscConfig (s : State) : (bringUp s).cscConfig = s.cscConfig := rfl
@[simp] theorem bringUp_cscFlags (s : State) : (bringUp s).cscFlags = s.cscFlags := rfl
@[simp] theorem bringUp_bft (s : State) : (bringUp s).bft = s.bft := rfl
@[simp] theorem bringUp_inflight (s : State) : (bringUp s).inflight = s.inflight := rfl
@[simp] theorem bringUp_trace (s : State) :
    (bringUp s).trace = s.trace ++ [.write prescaleOff s.cfg.prescale400k] := rfl
@[simp] theorem bringUp_program (s : State) : (bringUp s).program = s.program := rfl
@[simp] theorem bringUp_reply (s : State) : (bringUp s).reply = none := rfl
@[simp] theorem bringUp_envScript (s : State) : (bringUp s).envScript = s.envScript := rfl
@[simp] theorem bringUp_envDraws (s : State) : (bringUp s).envDraws = s.envDraws := rfl

end Sys2Proof.Machine
end

