-- ==== Sys2Proof/Laws/Ops.lean ====
section
/-! SUPPORT. For each shared operation, what it can answer: the flag tests, ENV's answers, the register window, the poll, the
poll loop, the classification and EXECUTE. Proofs cite these instead of unfolding the operations. -/

namespace Sys2Proof.Machine

/-! ## Flags -/

theorem resolved_eq_true {w : Word} : resolved w = true ↔ flagRip w = false ∧ flagNak w = false := by
  simp [resolved]

theorem resolved_eq_false {w : Word} : resolved w = false ↔ flagRip w = true ∨ flagNak w = true := by
  cases h : flagRip w <;> cases h' : flagNak w <;> simp [resolved, h, h']

/-- R154 by its mask: the exit test looks at bits 31 and 30. -/
theorem resolved_mask {w : Word} : resolved w = true ↔ w &&& 0xC0000000#32 = 0#32 := by
  rw [and_run_eq_zero (p := 30) (l := 2) (by decide) (by decide), field_eq_zero, resolved_eq_true]
  constructor
  · intro ⟨a, b⟩ i hi
    match i, hi with
    | 0, _ => exact a
    | 1, _ => exact b
  · intro a
    exact ⟨a 0 (by decide), a 1 (by decide)⟩

/-- The three flags cover every failed poll: a timeout's result is one of the two hardware-reported errors. -/
theorem timeoutResult_cases (w : Word) :
    timeoutResult w = .busRecoveryFailed ∨
      (timeoutResult w = .deviceNotResponding ∧ flagLhe w = false ∧ flagRip w = false ∧ flagNak w = true) := by
  cases h : flagLhe w <;> cases h' : flagRip w <;> cases h'' : flagNak w <;> simp [timeoutResult, h, h', h'']

theorem timeoutResult_not_ok (w : Word) (d : Option Byte) : timeoutResult w ≠ .ok d := by
  rcases timeoutResult_cases w with h | ⟨h, -⟩ <;> simp [h]

theorem timeoutResult_not_unsupported (w : Word) : timeoutResult w ≠ .unsupportedOperation := by
  rcases timeoutResult_cases w with h | ⟨h, -⟩ <;> simp [h]

/-! ## ENV -/

theorem envAnswer_cons {s : State} {a : Word} {l : List Word} (h : s.envScript = a :: l) (off : Nat) :
    s.envAnswer off = a := by
  simp [State.envAnswer, h]

/-- ENV's answer depends on the script, the trace and the number of choices alone. -/
theorem envAnswer_congr {s t : State} (hs : t.envScript = s.envScript) (ht : t.trace = s.trace)
    (hd : t.envDraws = s.envDraws) (off : Nat) : t.envAnswer off = s.envAnswer off := by
  simp [State.envAnswer, State.history, hs, ht, hd]

/-! ## The register window -/

/-- No register lies outside the four words of R62. -/
theorem regAt_eq_none {off : Nat} (h : off < 0x0C8 ∨ 0x0D7 < off) : regAt off = none := by
  have h' : off ≠ 0x0C8 ∧ off ≠ 0x0CC ∧ off ≠ 0x0D0 ∧ off ≠ 0x0D4 := by omega
  simp [regAt, h'.1, h'.2.1, h'.2.2.1, h'.2.2.2]

/-- A register's offset reaches the register. -/
theorem windowReg_at {cfg : Config} {off : Nat} {r : Reg} (hb : cfg.base % 4 = 0) (h : regAt off = some r) :
    windowReg cfg (cfg.base + off) 4 = .ok r := by
  have h4 : off % 4 = 0 := by
    unfold regAt at h
    simp only [cmdOff, prescaleOff, cscOff, bftOff] at h
    grind
  simp [windowReg, show (cfg.base + off) % 4 = 0 by omega, h]

/-- The window takes four-byte accesses of the four registers and nothing else. -/
theorem windowReg_ok {cfg : Config} {addr width : Nat} {r : Reg} (h : windowReg cfg addr width = .ok r) :
    width = 4 ∧ addr % 4 = 0 ∧ cfg.base ≤ addr ∧ regAt (addr - cfg.base) = some r := by
  unfold windowReg at h
  split at h <;> try contradiction
  split at h <;> try contradiction
  split at h <;> try contradiction
  split at h <;> try contradiction
  next hr => exact ⟨by omega, by omega, by omega, by simpa [hr] using h⟩

/-! ## PRESCALE and CMD: the accesses that depend on those before -/

theorem prescaleWritten_eq {s : State} :
    s.prescaleWritten = true ↔ s.initialised = true ∨ s.trace.any (isWriteAt prescaleOff) = true := by
  simp [State.prescaleWritten]

theorem readResolved_eq {s : State} :
    s.readResolved = true ↔ ∃ w, s.observed = some { word := w, resolved := true } ∧ cmdDirection w = .read := by
  unfold State.readResolved
  cases s.observed with
  | none => simp
  | some o => cases o; simp

/-- What the trace shows after more events is what they add to what it showed before. -/
theorem observed_append {s t : State} {events : List Event} (ht : t.trace = s.trace ++ events) :
    t.observed = events.foldl observe s.observed := by
  simp [State.observed, ht, List.foldl_append]

@[simp] theorem observe_sleep (seen : Option Observed) (lo hi : Nat) : observe seen (.sleep lo hi) = seen := rfl

@[simp] theorem observe_write_cmd (seen : Option Observed) (v : Word) :
    observe seen (.write cmdOff v) = some { word := v, resolved := false } := by
  simp [observe]

theorem observe_write_other (seen : Option Observed) {off : Nat} (v : Word) (h : off ≠ cmdOff) :
    observe seen (.write off v) = seen := by
  simp [observe, h]

@[simp] theorem observe_poll (o : Observed) (v : Word) :
    observe (some o) (.read cscOff v) = some { word := o.word, resolved := resolved v || o.resolved } := by
  cases h : resolved v <;> simp [observe, h]

theorem observe_read_other (seen : Option Observed) {off : Nat} (v : Word) (h : off ≠ cscOff) :
    observe seen (.read off v) = seen := by
  simp [observe, h]

/-- What events without a trigger show of a transaction: it is resolved once one of them is a poll that passes the exit test. -/
theorem observe_untriggered (events : List Event) (h : events.any (isWriteAt cmdOff) = false) (o : Observed) :
    ∃ b, events.foldl observe (some o) = some { word := o.word, resolved := b } ∧
      (b = true ↔ o.resolved = true ∨ ∃ a, .read cscOff a ∈ events ∧ resolved a = true) := by
  induction events generalizing o with
  | nil => exact ⟨o.resolved, rfl, by simp⟩
  | cons e events ih =>
    simp only [List.any_cons, Bool.or_eq_false_iff] at h
    cases e with
    | sleep lo hi =>
      obtain ⟨b, hb, hb'⟩ := ih h.2 o
      exact ⟨b, by simpa using hb, by simpa using hb'⟩
    | write off v =>
      obtain ⟨b, hb, hb'⟩ := ih h.2 o
      have hne : off ≠ cmdOff := by simpa [isWriteAt] using h.1
      exact ⟨b, by rw [List.foldl_cons, observe_write_other _ _ hne, hb], by simpa using hb'⟩
    | read off v =>
      by_cases hc : off = cscOff
      · subst hc
        obtain ⟨b, hb, hb'⟩ := ih h.2 { word := o.word, resolved := resolved v || o.resolved }
        refine ⟨b, by rw [List.foldl_cons, observe_poll, hb], hb'.trans ?_⟩
        cases hv : resolved v <;> simp [hv]
      · obtain ⟨b, hb, hb'⟩ := ih h.2 o
        refine ⟨b, by rw [List.foldl_cons, observe_read_other _ _ hc, hb], hb'.trans ?_⟩
        simp [Ne.symm hc]

/-- A trace without a trigger shows no transaction. -/
theorem observed_eq_none {s : State} (h : s.trace.any (isWriteAt cmdOff) = false) : s.observed = none := by
  unfold State.observed
  generalize s.trace = events at h
  induction events with
  | nil => rfl
  | cons e events ih =>
    simp only [List.any_cons, Bool.or_eq_false_iff] at h
    cases e with
    | sleep lo hi => exact ih h.2
    | write off v =>
      have hne : off ≠ cmdOff := by simpa [isWriteAt] using h.1
      rw [List.foldl_cons, observe_write_other _ _ hne, ih h.2]
    | read off v =>
      rw [List.foldl_cons, show observe none (.read off v) = none by simp [observe], ih h.2]

/-- What a trace shows whose latest trigger wrote `w`. -/
theorem observed_after_trigger {s : State} {before after : List Event} {w : Word}
    (ht : s.trace = before ++ .write cmdOff w :: after) (h : after.any (isWriteAt cmdOff) = false) :
    ∃ b, s.observed = some { word := w, resolved := b } ∧
      (b = true ↔ ∃ a, .read cscOff a ∈ after ∧ resolved a = true) := by
  obtain ⟨b, hb, hb'⟩ := observe_untriggered after h { word := w, resolved := false }
  exact ⟨b, by simpa [State.observed, ht, List.foldl_append] using hb, by simpa using hb'⟩

/-- What polls show of a transaction: it is resolved once one of them passes the exit test. -/
theorem observe_pollEvents (cfg : Config) (o : Observed) (answers : List Word) :
    (pollEvents cfg answers).foldl observe (some o) =
      some { word := o.word, resolved := answers.any resolved || o.resolved } := by
  induction answers generalizing o with
  | nil => rfl
  | cons a l ih => cases h : resolved a <;> simp [pollEvents, h, ih]

/-- The start of an operation begins a transaction that no poll has shown resolved. -/
theorem startTransaction_observed (r : Request) (c k : Word) (s : State) :
    (startTransaction r c k s).observed = some { word := c, resolved := false } := by
  simp [startTransaction, State.observed, List.foldl_append]

/-- Events added to the trace do not undo a write of PRESCALE. -/
theorem prescaleWritten_of_trace {s t : State} {events : List Event} (h : s.prescaleWritten = true)
    (hi : t.initialised = s.initialised) (ht : t.trace = s.trace ++ events) : t.prescaleWritten = true := by
  rw [prescaleWritten_eq] at h ⊢
  rw [hi, ht, List.any_append]
  rcases h with h | h <;> simp [h]

/-- Everything a write of PRESCALE through the window can do. -/
theorem write32_prescale {s : State} {v : Word} (hb : s.cfg.base % 4 = 0) :
    write32 prescaleOff v s =
      if s.prescaleWritten then .error .prescaleRewrite
      else if v = s.cfg.prescale400k then .ok (writePrescale v s)
      else .error .prescaleValue := by
  simp [write32, memWrite, windowReg_at (off := prescaleOff) hb rfl]

/-- Everything a read of CMD through the window can do. -/
theorem read32_cmd {s : State} (hb : s.cfg.base % 4 = 0) :
    read32 cmdOff s = if s.readResolved then .ok (s.envAnswer cmdOff, readCmd s) else .error .commandReadEarly := by
  simp [read32, memRead, windowReg_at (off := cmdOff) hb rfl]

/-! ## The poll -/

theorem pollOnce_resolved {s : State} (h : resolved (s.envAnswer cscOff) = true) :
    pollOnce s = setSeq .completed (countPoll (s.envAnswer cscOff) (readCsc s)) := by
  simp [pollOnce, h]

theorem pollOnce_spent {s : State} (h : resolved (s.envAnswer cscOff) = false) (hb : s.cfg.pollBudget ≤ s.pollCount + 1) :
    pollOnce s = setSeq .timedOut (sleep (countPoll (s.envAnswer cscOff) (readCsc s))) := by
  simp [pollOnce, h, hb]

theorem pollOnce_again {s : State} (h : resolved (s.envAnswer cscOff) = false) (hb : s.pollCount + 1 < s.cfg.pollBudget) :
    pollOnce s = sleep (countPoll (s.envAnswer cscOff) (readCsc s)) := by
  simp [pollOnce, h, show ¬s.cfg.pollBudget ≤ s.pollCount + 1 by omega]

/-- What every poll leaves alone. -/
structure SamePolled (s t : State) : Prop where
  cfg         : t.cfg = s.cfg
  op          : t.op = s.op
  cmdVal      : t.cmdVal = s.cmdVal
  cscVal      : t.cscVal = s.cscVal
  res         : t.res = s.res
  initialised : t.initialised = s.initialised
  cmd         : t.cmd = s.cmd
  prescale    : t.prescale = s.prescale
  cscConfig   : t.cscConfig = s.cscConfig
  bft         : t.bft = s.bft
  program     : t.program = s.program
  reply       : t.reply = s.reply

theorem SamePolled.trans {s t u : State} (h : SamePolled s t) (h' : SamePolled t u) : SamePolled s u := by
  constructor
  · rw [h'.cfg, h.cfg]
  · rw [h'.op, h.op]
  · rw [h'.cmdVal, h.cmdVal]
  · rw [h'.cscVal, h.cscVal]
  · rw [h'.res, h.res]
  · rw [h'.initialised, h.initialised]
  · rw [h'.cmd, h.cmd]
  · rw [h'.prescale, h.prescale]
  · rw [h'.cscConfig, h.cscConfig]
  · rw [h'.bft, h.bft]
  · rw [h'.program, h.program]
  · rw [h'.reply, h.reply]

theorem pollOnce_same (s : State) : SamePolled s (pollOnce s) := by
  unfold pollOnce
  split
  · constructor <;> simp
  · split <;> constructor <;> simp

/-- One poll on the trace, the counter, the latches and ENV, whatever its outcome. -/
structure OnePoll (s t : State) : Prop extends SamePolled s t where
  pollCount  : t.pollCount = s.pollCount + 1
  lastStatus : t.lastStatus = some (s.envAnswer cscOff)
  flags      : t.cscFlags = cscFlagBits (s.envAnswer cscOff)
  trace      : t.trace = s.trace ++ pollEvents s.cfg [s.envAnswer cscOff]
  envScript  : t.envScript = s.envScript.tail
  envDraws   : t.envDraws = s.envDraws + 1
  passed     : resolved (s.envAnswer cscOff) = true → t.seq = .completed ∧ t.inflight = none
  failed     : resolved (s.envAnswer cscOff) = false →
    t.inflight = s.inflight ∧ t.seq = if s.cfg.pollBudget ≤ s.pollCount + 1 then .timedOut else s.seq

theorem pollOnce_spec (s : State) : OnePoll s (pollOnce s) := by
  refine ⟨pollOnce_same s, ?_, ?_, ?_, ?_, ?_, ?_, ?_, ?_⟩ <;> unfold pollOnce <;> cases h : resolved (s.envAnswer cscOff) <;>
    by_cases hb : s.cfg.pollBudget ≤ s.pollCount + 1 <;> simp [h, hb, pollEvents]

/-! ## The poll loop -/

theorem pollEvents_append (cfg : Config) (l m : List Word) : pollEvents cfg (l ++ m) = pollEvents cfg l ++ pollEvents cfg m := by
  induction l with
  | nil => rfl
  | cons a l ih => simp only [List.cons_append, pollEvents]; split <;> simp [ih]

/-- A run of the poll loop from `s` to `t`: the polls `failed`, then the poll `last`. -/
structure PollRun (s : State) (failed : List Word) (last : Word) (t : State) : Prop extends SamePolled s t where
  unresolved : ∀ a ∈ failed, resolved a = false
  pollCount  : t.pollCount = s.pollCount + (failed.length + 1)
  lastStatus : t.lastStatus = some last
  flags      : t.cscFlags = cscFlagBits last
  trace      : t.trace = s.trace ++ pollEvents s.cfg (failed ++ [last])
  script     : ∀ i, i ≤ failed.length → i < s.envScript.length → (failed ++ [last])[i]? = s.envScript[i]?
  envScript  : t.envScript = s.envScript.drop (failed.length + 1)
  envDraws   : t.envDraws = s.envDraws + (failed.length + 1)
  budget     : s.pollCount + (failed.length + 1) ≤ s.cfg.pollBudget
  passed     : resolved last = true → t.seq = .completed ∧ t.inflight = none
  spent      : resolved last = false →
    s.pollCount + (failed.length + 1) = s.cfg.pollBudget ∧ t.seq = .timedOut ∧ t.inflight = s.inflight

/-- Everything the poll loop can do, from POLLING with `n + 1` polls left. -/
theorem pollLoop_spec (n : Nat) : ∀ s : State, s.seq = .polling → s.pollCount + (n + 1) = s.cfg.pollBudget →
    ∃ failed last, PollRun s failed last (pollLoop n s) := by
  have single : ∀ s : State, s.pollCount + 1 ≤ s.cfg.pollBudget →
      (resolved (s.envAnswer cscOff) = false → s.pollCount + 1 = s.cfg.pollBudget) →
      PollRun s [] (s.envAnswer cscOff) (pollOnce s) := by
    intro s hb hf
    have h := pollOnce_spec s
    refine ⟨h.toSamePolled, ?_, ?_, ?_, ?_, ?_, ?_, ?_, ?_, ?_, ?_, ?_⟩
    · simp
    · simpa using h.pollCount
    · exact h.lastStatus
    · exact h.flags
    · exact h.trace
    · intro i hi hl
      obtain rfl : i = 0 := by simpa using hi
      cases hs : s.envScript with
      | nil => simp [hs] at hl
      | cons a l => simp [envAnswer_cons hs]
    · simpa using h.envScript
    · exact h.envDraws
    · simpa using hb
    · exact h.passed
    · intro hr
      have := h.failed hr
      simp [hf hr] at this ⊢
      exact ⟨this.2, this.1⟩
  induction n with
  | zero =>
    intro s hs hb
    exact ⟨[], _, single s (by omega) (by omega)⟩
  | succ n ih =>
    intro s hs hb
    have h := pollOnce_spec s
    cases hr : resolved (s.envAnswer cscOff) with
    | true =>
      refine ⟨[], s.envAnswer cscOff, ?_⟩
      simp only [pollLoop, (h.passed hr).1, reduceCtorEq, ↓reduceIte]
      exact single s (by omega) (by simp [hr])
    | false =>
      have hp : (pollOnce s).seq = .polling := by
        rw [(h.failed hr).2, if_neg (by omega), hs]
      obtain ⟨failed, last, g⟩ := ih (pollOnce s) hp (by rw [h.pollCount, h.cfg]; omega)
      refine ⟨s.envAnswer cscOff :: failed, last, ?_⟩
      simp only [pollLoop, hp, ↓reduceIte]
      refine ⟨h.toSamePolled.trans g.toSamePolled, ?_, ?_, ?_, ?_, ?_, ?_, ?_, ?_, ?_, ?_, ?_⟩
      · simpa [hr] using g.unresolved
      · rw [g.pollCount, h.pollCount]; simp; omega
      · exact g.lastStatus
      · exact g.flags
      · rw [g.trace, h.trace, h.cfg]; simp [pollEvents, hr]
      · intro i hi hl
        cases hs' : s.envScript with
        | nil => simp [hs'] at hl
        | cons a l =>
          cases i with
          | zero => simp [envAnswer_cons hs']
          | succ i =>
            have := g.script i (by simpa using hi) (by simpa [h.envScript, hs'] using hl)
            simpa [h.envScript, hs'] using this
      · rw [g.envScript, h.envScript]; simp [List.drop_tail]
      · rw [g.envDraws, h.envDraws]; simp; omega
      · have := g.budget
        rw [h.pollCount, h.cfg] at this; simp; omega
      · exact g.passed
      · intro hl
        have := g.spent hl
        rw [h.pollCount, h.cfg, (h.failed hr).1] at this
        simp; exact ⟨by omega, this.2⟩

/-- The whole poller stage: the loop, run from the started state (R159). -/
theorem poll_spec (r : Request) (c k : Word) {s : State} (hb : 1 ≤ s.cfg.pollBudget) :
    ∃ failed last, PollRun (startTransaction r c k s) failed last (poll r c k s) := by
  apply pollLoop_spec
  · simp [startTransaction]
  · simp [startTransaction]; omega

/-- The transaction that a started operation has in flight: its own words (R203). -/
theorem startTransaction_inflight (r : Request) (c k : Word) (s : State) :
    (startTransaction r c k s).inflight = some ⟨c, cscAddrLsb k, cscTimingLo k, cscTimingHi k⟩ := by
  simp [startTransaction, sampleInflight, cscAddrLsb, cscTimingLo, cscTimingHi]

/-! ## The classification -/

/-- The state after a poller that ended in COMPLETED is one in which a read transaction has resolved. -/
theorem poll_readResolved {r : Request} {c k : Word} {s : State} (hb : 1 ≤ s.cfg.pollBudget)
    (hd : cmdDirection c = .read) (hq : (poll r c k s).seq = .completed) : (poll r c k s).readResolved = true := by
  obtain ⟨failed, last, h⟩ := poll_spec r c k hb
  have hl : resolved last = true := by
    cases hr : resolved last with
    | true => rfl
    | false => rw [(h.spent hr).2.1] at hq; contradiction
  rw [readResolved_eq]
  refine ⟨c, ?_, hd⟩
  rw [observed_append h.trace, startTransaction_observed, observe_pollEvents]
  simp [hl]

theorem classify_read {s : State} (h : s.seq = .completed) :
    classify .read s = finish (.ok (some (cmdData (s.envAnswer cmdOff)))) (readCmd s) := by
  simp [classify, h]

theorem classify_write {s : State} (h : s.seq = .completed) : classify .write s = finish (.ok none) s := by
  simp [classify, h]

theorem classify_timedOut {s : State} {w : Word} (d : Direction) (h : s.seq = .timedOut) (hl : s.lastStatus = some w) :
    classify d s = finish (timeoutResult w) (settleInflight s) := by
  simp [classify, h, hl]

/-! ## EXECUTE -/

@[simp] theorem ready_eq {s : State} : s.ready = true ↔ s.initialised = true ∧ s.seq = .idle := by
  simp [State.ready]

/-- Every bus operation is one call of EXECUTE with its request (R185). -/
theorem exec_request {i : Instr} {r : Request} (h : i.request = some r) (s : State) : exec i s = execute r s := by
  cases i <;> simp [Instr.request] at h <;> subst h <;> rfl

@[simp] theorem exec_instr (r : Request) (s : State) : exec r.instr s = execute r s :=
  exec_request (request_instr r) s

theorem execute_rejected {s : State} {r : Request} (hs : s.ready = true)
    (h : encodeRequest s.cfg.timingLo s.cfg.timingHi r = none) :
    execute r s = .next (deliver .unsupportedOperation s) := by
  have hs := ready_eq.1 hs
  simp [execute, hs, h]

theorem execute_accepted {s : State} {r : Request} {c k : Word} (hs : s.ready = true)
    (h : encodeRequest s.cfg.timingLo s.cfg.timingHi r = some (c, k)) :
    execute r s = .next (classify r.dir (poll r c k s)) := by
  have hs := ready_eq.1 hs
  simp [execute, hs, h]

/-- When EXECUTE answers a next state, and which. -/
theorem execute_next {s t : State} {r : Request} (h : execute r s = .next t) :
    s.ready = true ∧
      ((encodeRequest s.cfg.timingLo s.cfg.timingHi r = none ∧ t = deliver .unsupportedOperation s) ∨
       ∃ c k, encodeRequest s.cfg.timingLo s.cfg.timingHi r = some (c, k) ∧ t = classify r.dir (poll r c k s)) := by
  unfold execute at h
  split at h <;> try contradiction
  split at h <;> try contradiction
  next hi hq =>
    refine ⟨by simp [State.ready]; grind, ?_⟩
    split at h
    next he => exact .inl ⟨he, by simpa using h.symm⟩
    next c k he => exact .inr ⟨c, k, he, by simpa using h.symm⟩

/-! ## INIT -/

/-- Everything INIT can do. -/
theorem execInit_eq (s : State) :
    exec .init s =
      if s.initialised = true then .refused .secondInit
      else if s.prescaleWritten = true then .refused .prescaleRewrite
      else .next (bringUp s) := rfl

/-! ## The step -/

theorem step_line_ok {s : State} {line : HostLine} {rest : List HostLine} {i : Instr} (hs : s.seq = .idle)
    (hp : s.program = line :: rest) (hd : line.decode = .ok i) : step s = exec i { s with program := rest } := by
  simp [step, hs, hp, hd]

theorem step_line_error {s : State} {line : HostLine} {rest : List HostLine} {e : DecodeError} (hs : s.seq = .idle)
    (hp : s.program = line :: rest) (hd : line.decode = .error e) : step s = .refused (.reservedEncoding e) := by
  simp [step, hs, hp, hd]

theorem step_busy {s : State} {r : Request} (hs : s.seq ≠ .idle) (ho : s.op = some r) :
    step s = .next (advance r.dir s) := by
  cases h : s.seq <;> simp_all [step, resume]

/-- When a step answers a next state, and which: the CORE waits, a line runs, or the operation in progress moves on. -/
theorem step_next {s t : State} (h : step s = .next t) :
    (s.seq = .idle ∧ s.program = [] ∧ t = s) ∨
    (s.seq = .idle ∧ ∃ line rest i, s.program = line :: rest ∧ line.decode = .ok i ∧
      exec i { s with program := rest } = .next t) ∨
    (s.seq ≠ .idle ∧ ∃ r, s.op = some r ∧ t = advance r.dir s) := by
  by_cases hq : s.seq = .idle
  · cases hp : s.program with
    | nil => simp only [step, hq, hp, Host.Outcome.next.injEq] at h; exact .inl ⟨hq, rfl, h.symm⟩
    | cons line rest =>
      cases hd : line.decode with
      | ok i => exact .inr (.inl ⟨hq, line, rest, i, rfl, hd, (step_line_ok hq hp hd).symm.trans h⟩)
      | error e => rw [step_line_error hq hp hd] at h; contradiction
  · cases ho : s.op with
    | none => cases hs : s.seq <;> simp_all [step, resume]
    | some r =>
      rw [step_busy hq ho] at h
      exact .inr (.inr ⟨hq, r, rfl, by simpa using h.symm⟩)

/-! ## Runs of the machine -/

theorem run_zero (s : State) : Host.Core.run core 0 s = .next s := rfl

/-- A run begins with one step. -/
theorem run_succ {s s' : State} (h : step s = .next s') (n : Nat) :
    Host.Core.run core (n + 1) s = Host.Core.run core n s' := by
  have h : core.step s = .next s' := h
  simp only [Host.Core.run, h]

/-- Runs compose. -/
theorem run_add {s t : State} {n : Nat} (h : Host.Core.run core n s = .next t) (m : Nat) :
    Host.Core.run core (n + m) s = Host.Core.run core m t := by
  induction n generalizing s with
  | zero =>
    have h : Host.Outcome.next s = .next t := h
    injection h with h
    rw [h, Nat.zero_add]
  | succ n ih =>
    rw [Nat.add_right_comm]
    simp only [Host.Core.run] at h ⊢
    cases hs : core.step s with
    | next s' => rw [hs] at h; exact ih h
    | fault f => rw [hs] at h; contradiction
    | refused r => rw [hs] at h; contradiction

end Sys2Proof.Machine
end

