-- ==== Sys2Proof/Laws/PerInstr.lean ====
section
/-! SUPPORT. Statements for all operations, one lemma per constructor of `Instr`. -/

namespace Sys2Proof.Laws

/-- The operation map loses nothing (30_encoding.md R100, R110): an operation that carries a request is the row that the
request's direction and width select, and an operation has two words only if it carries a request. -/
def RequestMap.Statement (i : Instr) : Prop :=
  (∀ r, i.request = some r → r.instr = i) ∧ (i.request = none → ∀ lo hi, encode lo hi i = none)

theorem RequestMap.byteRead (a : TargetAddr) (c : Byte) (p : BitVec 16) : RequestMap.Statement (.byteRead a c p) := by
  simp [RequestMap.Statement, Instr.request, Request.instr]

theorem RequestMap.byteWrite (a : TargetAddr) (c : Byte) (p : BitVec 16) : RequestMap.Statement (.byteWrite a c p) := by
  simp [RequestMap.Statement, Instr.request, Request.instr]

theorem RequestMap.wordWrite (a : TargetAddr) (c : Byte) (p : BitVec 16) : RequestMap.Statement (.wordWrite a c p) := by
  simp [RequestMap.Statement, Instr.request, Request.instr]

theorem RequestMap.wordRead (a : TargetAddr) (c : Byte) (p : BitVec 16) : RequestMap.Statement (.wordRead a c p) := by
  simp [RequestMap.Statement, Instr.request, Request.instr]

theorem RequestMap.other (a : TargetAddr) (d : Direction) (c : Byte) (p : BitVec 16) :
    RequestMap.Statement (.other a d c p) := by
  simp [RequestMap.Statement, Instr.request, Request.instr]

theorem RequestMap.init : RequestMap.Statement .init := by
  simp [RequestMap.Statement, Instr.request, encode]

theorem RequestMap.caps : RequestMap.Statement .caps := by
  simp [RequestMap.Statement, Instr.request, encode]

end Sys2Proof.Laws
end

