-- ==== Sys2Proof/Tests/Slice0.lean ====
section
/-! SUPPORT. Tests: the well-formedness checks, words written out from 30_encoding.md R101, vectors of 95_test_vectors.md on
single operations, and for every obligation with hypotheses a witness that meets them. Expected results are the spec's. -/

namespace Sys2Proof.Tests

open Sys2Proof Sys2Proof.Machine

/-! ## Helpers -/

/-- TCFG of 95_test_vectors.md section 2, with BASE 0x1000 and the poll budget `n`. -/
def tcfg (n : Nat) : Config := ⟨0x1000, 0xA5A50400#32, 0xA5A50100#32, 0x2D#8, 0x1234#16, n, 70, 100⟩

/-- The machine right after reset with TCFG. -/
def cold (n : Nat) : State := { State.reset with cfg := tcfg n }

/-- The machine after bring-up, ready for a request, with ENV's coming answers listed. -/
def warm (n : Nat) (answers : List Word) : State :=
  { cold n with initialised := true, prescale := 0xA5A50400#32, envScript := answers }

/-- The machine in the middle of BYTE_READ 0x55, 0x10 (words of E1). -/
def busy (n polls : Nat) (q : Seq) (status : Option Word) (answers : List Word) : State :=
  { warm n answers with
    seq := q, pollCount := polls, lastStatus := status, cmd := 0x54001000#32, cscConfig := 0x0024685B#29,
    op := some ⟨0x55#7, .read, 0x10#8, .byte, 0#16⟩, cmdVal := some 0x54001000#32, cscVal := some 0x0024685B#32,
    trace := [.write 0x0CC 0xA5A50400#32, .write 0x0D0 0x0024685B#32, .write 0x0C8 0x54001000#32]
      ++ status.toList.map (.read 0x0D0) }

/-- The next state satisfies `p`. -/
def nextIs (o : Host.Outcome State Fault Refusal) (p : State → Bool) : Bool :=
  match o with
  | .next t    => p t
  | .fault _   => false
  | .refused _ => false

theorem next_of_nextIs {o : Host.Outcome State Fault Refusal} {p : State → Bool} (h : nextIs o p = true) :
    ∃ t, o = .next t ∧ p t = true := by
  cases o with
  | next t => exact ⟨t, rfl, h⟩
  | fault _ => cases h
  | refused _ => cases h

/-- Result, poll count and trace of the next state. -/
def outcomeOf (o : Host.Outcome State Fault Refusal) : Option (Option TransferResult × Nat × List Event) :=
  match o with
  | .next t    => some (t.res, t.pollCount, t.trace)
  | .fault _   => none
  | .refused _ => none

/-! ## Well-formedness: an ill-formed term for each check -/

theorem test_ill_formed_byteRead : (Instr.byteRead 0x55#7 0x10#8 1#16).wellFormed = false := by decide
theorem test_ill_formed_byteWrite : (Instr.byteWrite 0x55#7 0x10#8 0x0100#16).wellFormed = false := by decide
theorem test_ill_formed_wordRead : (Instr.wordRead 0x55#7 0x10#8 0x8000#16).wellFormed = false := by decide
theorem test_ill_formed_other : (Instr.other 0x55#7 .write 0x10#8 1#16).wellFormed = false := by decide

/-! ## Words written out bit by bit from R91, R92 and R101 -/

/-- 0 aaaaaa 0 00000000 cccccccc 00000000 with address bits 6:1 = 101010 and ADDR_LSB = 1 (vector E1). -/
theorem test_decode_byteRead :
    decodeWords 0b0_101010_0_00000000_00010000_00000000#32 0b0000000_0001001000110100_00101101_1#32
      = .ok (.byteRead 0b1010101#7 0b00010000#8 0#16) := by decide

/-- 1 aaaaaa 0 00000000 cccccccc dddddddd (vector E2). -/
theorem test_decode_byteWrite :
    decodeWords 0b1_101010_0_00000000_00010000_10100111#32 0b0000000_0001001000110100_00101101_1#32
      = .ok (.byteWrite 0b1010101#7 0b00010000#8 0b10100111#16) := by decide

/-- 1 aaaaaa 1 cccccccc llllllll hhhhhhhh (vector E3). -/
theorem test_decode_wordWrite :
    decodeWords 0b1_101010_1_00010000_11101111_10111110#32 0b0000000_0001001000110100_00101101_1#32
      = .ok (.wordWrite 0b1010101#7 0b00010000#8 0b1011111011101111#16) := by decide

/-- The two words of E3 as eight bytes, least significant first (log 4), with a byte after them. -/
theorem test_decode_bytes :
    decode [0xBE#8, 0xEF#8, 0x10#8, 0xD5#8, 0x5B#8, 0x68#8, 0x24#8, 0x00#8, 0x99#8]
      = .ok (.wordWrite 0x55#7 0x10#8 0xBEEF#16, [0x99#8]) := by decide

/-- R104 (a), (b), R105 and a short string are refused, each by its name. -/
theorem test_decode_reserved :
    decodeWords 0x01000000#32 0#32 = .error .reservedWordRead ∧
    decodeWords 0x80010000#32 0#32 = .error .reservedMasterHigh ∧
    decodeWords 0#32 0x02000000#32 = .error .reservedClockBits ∧
    decodeWords 0#32 0x20000000#32 = .error .clockFlagBits ∧
    decode [0#8, 0#8, 0#8, 0#8, 0#8, 0#8, 0#8] = .error .truncated := by decide

/-- E16 and E25: byte order of the payload, and a payload bit beyond the row masked off. -/
theorem test_encode_vectors :
    encodeRequest 0x2D#8 0x1234#16 ⟨0x48#7, .write, 0x01#8, .word, 0xFF00#16⟩ = some (0xC90100FF#32, 0x0024685A#32) ∧
    encodeRequest 0x2D#8 0x1234#16 ⟨0x50#7, .write, 0x02#8, .byte, 0xFF5A#16⟩ = some (0xD000025A#32, 0x0024685A#32) := by
  decide

/-! ## Operations -/

/-- Vector P2. -/
theorem test_byteRead_first_poll :
    outcomeOf (exec (.byteRead 0x55#7 0x10#8 0#16) (warm 100 [0#32, 0x5400105A#32])) =
      some (some (.ok (some 0x5A#8)), 1,
        [.write 0x0D0 0x0024685B#32, .write 0x0C8 0x54001000#32, .read 0x0D0 0#32, .read 0x0C8 0x5400105A#32]) := by
  decide

/-- Vector P10: bits 28:0 of a poll and bits 31:8 of the CMD read are ignored. -/
theorem test_byteRead_ignored_bits :
    outcomeOf (exec (.byteRead 0x50#7 0x02#8 0#16) (warm 100 [0x41ABCDEF#32, 0x1FFFFFFF#32, 0xFFFFFFC4#32])) =
      some (some (.ok (some 0xC4#8)), 2,
        [.write 0x0D0 0x0024685A#32, .write 0x0C8 0x50000200#32, .read 0x0D0 0x41ABCDEF#32, .sleep 70 100,
          .read 0x0D0 0x1FFFFFFF#32, .read 0x0C8 0xFFFFFFC4#32]) := by decide

/-- Vector P3. -/
theorem test_byteWrite_third_poll :
    outcomeOf (exec (.byteWrite 0x55#7 0x10#8 0xA7#16) (warm 100 [0x40000000#32, 0x40000000#32, 0#32])) =
      some (some (.ok none), 3,
        [.write 0x0D0 0x0024685B#32, .write 0x0C8 0xD40010A7#32, .read 0x0D0 0x40000000#32, .sleep 70 100,
          .read 0x0D0 0x40000000#32, .sleep 70 100, .read 0x0D0 0#32]) := by decide

/-- Vector P8: LHE is not in the exit test. -/
theorem test_byteWrite_line_held :
    outcomeOf (exec (.byteWrite 0x55#7 0x10#8 0xA7#16) (warm 100 [0x20000000#32])) =
      some (some (.ok none), 1,
        [.write 0x0D0 0x0024685B#32, .write 0x0C8 0xD40010A7#32, .read 0x0D0 0x20000000#32]) := by decide

/-- Vector P12 with a budget of 2: the last status alone is classified, NAK alone. -/
theorem test_wordWrite_not_acknowledged :
    outcomeOf (exec (.wordWrite 0x55#7 0x10#8 0xBEEF#16) (warm 2 [0x40000000#32, 0x80000000#32, 0#32])) =
      some (some .deviceNotResponding, 2,
        [.write 0x0D0 0x0024685B#32, .write 0x0C8 0xD510EFBE#32, .read 0x0D0 0x40000000#32, .sleep 70 100,
          .read 0x0D0 0x80000000#32, .sleep 70 100]) := by decide

/-- Vector P4 with a budget of 2: success on the last poll is no timeout. -/
theorem test_wordWrite_last_poll :
    outcomeOf (exec (.wordWrite 0x55#7 0x10#8 0xBEEF#16) (warm 2 [0xA0000000#32, 0#32])) =
      some (some (.ok none), 2,
        [.write 0x0D0 0x0024685B#32, .write 0x0C8 0xD510EFBE#32, .read 0x0D0 0xA0000000#32, .sleep 70 100,
          .read 0x0D0 0#32]) := by decide

/-- The classifier table of 95_test_vectors.md section 3.2, rows that spend the budget. -/
theorem test_timeoutResult_table :
    [0x40000000#32, 0x60000000#32, 0x80000000#32, 0xA0000000#32, 0xC0000000#32, 0xE0000000#32].map timeoutResult =
      [.busRecoveryFailed, .busRecoveryFailed, .deviceNotResponding, .busRecoveryFailed, .busRecoveryFailed,
        .busRecoveryFailed] := by decide

/-- Vector E28. -/
theorem test_wordRead_unsupported :
    outcomeOf (exec (.wordRead 0x00#7 0x00#8 0xFFFF#16) (warm 100 [])) = some (some .unsupportedOperation, 0, []) := by
  decide

/-- Vectors E29 and E30. -/
theorem test_other_unsupported :
    outcomeOf (exec (.other 0x55#7 .write 0x10#8 0#16) (warm 100 [])) = some (some .unsupportedOperation, 0, []) ∧
    outcomeOf (exec (.other 0x55#7 .read 0x10#8 0#16) (warm 100 [])) = some (some .unsupportedOperation, 0, []) := by
  decide

/-- R190: one write of PRESCALE_400K, and no result. -/
theorem test_init_one_write :
    nextIs (exec .init (cold 100)) (fun t =>
      t.trace == [.write 0x0CC 0xA5A50400#32] && t.initialised && t.res == none && t.reply == none) = true := by decide

/-- R192: before bring-up and in the middle of an operation, the same three names. -/
theorem test_caps_names :
    nextIs (exec .caps (cold 100)) (fun t =>
      t.reply == some (.capabilities ⟨true, true, true⟩) && t.trace == []) = true ∧
    nextIs (exec .caps (busy 100 1 .polling (some 0x40000000#32) [])) (fun t =>
      t.reply == some (.capabilities ⟨true, true, true⟩) && t.seq == .polling) = true := by decide

/-- R193: bit 0 ByteRead, bit 1 ByteWrite, bit 2 WordWrite; the set returned is 0x7. -/
theorem test_capability_code :
    capabilitySet.code = 0x7#3 ∧ (CapabilitySet.mk true false false).code = 1#3 ∧
    (CapabilitySet.mk false true false).code = 2#3 ∧ (CapabilitySet.mk false false true).code = 4#3 := by decide

/-- The refusal that an access of the window answers, if any. -/
def refusalOf {α : Type} (r : Except Refusal α) : Option Refusal :=
  match r with
  | .ok _    => none
  | .error e => some e

/-- U12: PRESCALE_100K, and any write after the first, INIT or not, are refused; the first of PRESCALE_400K is taken. -/
theorem test_prescale_once :
    refusalOf (write32 0x0CC 0xA5A50400#32 (cold 1)) = none ∧
    refusalOf (write32 0x0CC 0xA5A50100#32 (cold 1)) = some .prescaleValue ∧
    refusalOf (write32 0x0CC 0xA5A50400#32 (writePrescale 0xA5A50400#32 (cold 1))) = some .prescaleRewrite := by decide

/-- U12: INIT after a direct write of PRESCALE would be a second write. -/
theorem test_init_after_direct_write :
    (match exec .init (writePrescale 0xA5A50400#32 (cold 1)) with
      | .next _    => false
      | .fault _   => false
      | .refused r => r == .prescaleRewrite) = true := by decide

/-- U8: CMD is not read right after reset, nor before a read transaction has resolved, nor after a write, nor after a timeout
that the hardware resolved unseen. -/
theorem test_cmd_read_guard :
    refusalOf (read32 0x0C8 (warm 1 [])) = some .commandReadEarly ∧
    refusalOf (read32 0x0C8 (writeCmd 0x54001000#32 (warm 1 [0#32]))) = some .commandReadEarly ∧
    refusalOf (read32 0x0C8 (readCsc (writeCmd 0x54001000#32 (warm 1 [0#32])))) = none ∧
    refusalOf (read32 0x0C8 (readCsc (writeCmd 0xD40010A7#32 (warm 1 [0#32])))) = some .commandReadEarly ∧
    refusalOf (read32 0x0C8 { writeCmd 0x54001000#32 (warm 1 []) with inflight := none }) = some .commandReadEarly := by decide

/-- R203: what the engine takes at the trigger, on the words of E3. -/
theorem test_trigger_samples :
    (writeCmd 0xD510EFBE#32 (writeCsc 0x0024685B#32 (warm 100 []))).inflight.map
        (fun f => (f.target, f.direction, f.command, f.payload, f.timingLo, f.timingHi)) =
      some (0x55#7, .write, 0x10#8, 0xBEEF#16, 0x2D#8, 0x1234#16) := by decide

/-- R206: the constant of bring-up selects 400 kHz, the other constant 100 kHz. -/
theorem test_bus_speed :
    (warm 100 []).busSpeedKHz = some 400 ∧
    ({ warm 100 [] with prescale := 0xA5A50100#32 }).busSpeedKHz = some 100 := by decide

/-- A word of the table, put in place after reset, is the first to run. -/
theorem test_withFetchWord_runs :
    nextIs (step (({ cold 1 with envScript := [0#32] } : State).withFetchWord 32 0xD510EFBE)) (fun t => t.cmd == 0xD510EFBE#32 && t.seq == .idle) = true := by
  decide

/-! ## Witnesses: every obligation's hypotheses are met -/

/-- DecodeOfEncode: each of the three operations, at the ends of its operands. -/
theorem witness_DecodeOfEncode :
    (∀ i ∈ [Instr.byteRead 0x7F#7 0xFF#8 0#16, .byteRead 0#7 0#8 0#16],
      i.wellFormed = true ∧ i.mnemonic = "BYTE_READ") ∧
    (∀ i ∈ [Instr.byteWrite 0x7F#7 0xFF#8 0xFF#16, .byteWrite 0#7 0#8 0#16],
      i.wellFormed = true ∧ i.mnemonic = "BYTE_WRITE") ∧
    (∀ i ∈ [Instr.wordWrite 0x7F#7 0xFF#8 0xFFFF#16, .wordWrite 0#7 0#8 0#16],
      i.wellFormed = true ∧ i.mnemonic = "WORD_WRITE") := by decide

/-- EncodeOfDecode: a pair that decodes in each direction, the read with DATA at 0xFF. -/
theorem witness_EncodeOfDecode :
    (decodeWords 0xFFFFFFFF#32 0x01FFFFFF#32 = .ok (.wordWrite 0x7F#7 0xFF#8 0xFFFF#16) ∧
      cmdDirection 0xFFFFFFFF#32 = .write) ∧
    (decodeWords 0x540010FF#32 0#32 = .ok (.byteRead 0x54#7 0x10#8 0#16) ∧ cmdDirection 0x540010FF#32 = .read) := by decide

/-- RowsOfTableDecode: a word of each row, and an unreserved companion with every allowed bit set. -/
theorem witness_RowsOfTableDecode :
    (∃ a ∈ opcodeRows, a.holds 0x7E00FF00#32 = true ∧ a.mnemonic = "BYTE_READ") ∧
    (∃ a ∈ opcodeRows, a.holds 0xFE00FFFF#32 = true ∧ a.mnemonic = "BYTE_WRITE") ∧
    (∃ a ∈ opcodeRows, a.holds 0xFFFFFFFF#32 = true ∧ a.mnemonic = "WORD_WRITE") ∧
    reservedClock 0x01FFFFFF#32 = none := by decide

/-- ReservedWordsRefused, clause by clause, at boundary values. -/
theorem witness_ReservedWordsRefused :
    (0x01FFFFFF#32 &&& 0xFE000000#32 = 0#32 ∧ 0x7FFFFFFF#32 &&& 0x81000000#32 = 0x01000000#32 ∧
      0x01000000#32 &&& 0x81000000#32 = 0x01000000#32) ∧
    (0x00010000#32 &&& 0x01000000#32 = 0#32 ∧ 0x00010000#32 &&& 0x00FF0000#32 ≠ 0#32 ∧
      0x80800000#32 &&& 0x01000000#32 = 0#32 ∧ 0x80800000#32 &&& 0x00FF0000#32 ≠ 0#32) ∧
    (0x7E00FFFF#32 &&& 0x81FF0000#32 = 0#32) ∧
    (0x80000000#32 &&& 0x81FF0000#32 = 0x80000000#32 ∧ 0xFE00FFFF#32 &&& 0x81FF0000#32 = 0x80000000#32) ∧
    (0x81000000#32 &&& 0x81000000#32 = 0x81000000#32 ∧ 0xFFFFFFFF#32 &&& 0x81000000#32 = 0x81000000#32) ∧
    (0x02000000#32 &&& 0xFE000000#32 ≠ 0#32 ∧ 0x80000000#32 &&& 0xFE000000#32 ≠ 0#32) := by decide

/-- CommandFieldsReadBack: a request with its words, and its five field values (vector E3). -/
theorem witness_CommandFieldsReadBack :
    encodeRequest 0x2D#8 0x1234#16 ⟨0x55#7, .write, 0x10#8, .word, 0xBEEF#16⟩ = some (0xD510EFBE#32, 0x0024685B#32) ∧
    (0x55#7).extractLsb' 1 6 = 0x2A#6 ∧ 0x10#8 ++ (0xBEEF#16).extractLsb' 0 8 = 0x10EF#16 ∧
    (0xBEEF#16).extractLsb' 8 8 = 0xBE#8 := by decide

/-- AddressSplit: an accepted operation, and another address that differs in bit 0 alone (vectors E22 and E23). -/
theorem witness_AddressSplit :
    encodeRequest 0x2D#8 0x1234#16 ⟨0x68#7, .read, 0x75#8, .byte, 0#16⟩ = some (0x68007500#32, 0x0024685A#32) ∧
    (0x69#7).extractLsb' 1 6 = (0x68#7).extractLsb' 1 6 := by decide

/-- EncodedWordProperties and TriggerStartsRequest: a request of each width that has words. -/
theorem witness_EncodedWordProperties :
    encodeRequest 0x2D#8 0x1234#16 ⟨0x7F#7, .write, 0xFF#8, .byte, 0xFF#16⟩ = some (0xFE00FFFF#32, 0x0024685B#32) ∧
    encodeRequest 0x2D#8 0x1234#16 ⟨0#7, .write, 0#8, .word, 0#16⟩ = some (0x81000000#32, 0x0024685A#32) := by decide

/-- EncodeInjective: two different requests with the same pair of words (vectors E1 and E26). -/
theorem witness_EncodeInjective :
    encodeRequest 0x2D#8 0x1234#16 ⟨0x55#7, .read, 0x10#8, .byte, 0#16⟩ = some (0x54001000#32, 0x0024685B#32) ∧
    encodeRequest 0x2D#8 0x1234#16 ⟨0x55#7, .read, 0x10#8, .byte, 0xDEAD#16⟩ = some (0x54001000#32, 0x0024685B#32) := by
  decide

/-- StepRunsNextLine: a line that decodes, a line that does not, and no line. -/
theorem witness_StepRunsNextLine :
    (∃ s : State, s.seq = .idle ∧ s.program = [.encoded 0xD510EFBE#32 0x0024685B#32] ∧
      (HostLine.encoded 0xD510EFBE#32 0x0024685B#32).decode = .ok (.wordWrite 0x55#7 0x10#8 0xBEEF#16)) ∧
    (∃ s : State, s.seq = .idle ∧ s.program = [.encoded 0x01000000#32 0#32] ∧
      (HostLine.encoded 0x01000000#32 0#32).decode = .error .reservedWordRead) ∧
    (∃ s : State, s.seq = .idle ∧ s.program = []) :=
  ⟨⟨{ warm 100 [] with program := [.encoded 0xD510EFBE#32 0x0024685B#32] }, rfl, rfl, by decide⟩,
    ⟨{ warm 100 [] with program := [.encoded 0x01000000#32 0#32] }, rfl, rfl, by decide⟩, ⟨warm 100 [], rfl, rfl⟩⟩

/-- EveryOperationHasLine: SEQ is IDLE in a machine that is ready and in one not yet brought up. -/
theorem witness_EveryOperationHasLine : (warm 100 []).seq = .idle ∧ (cold 100).seq = .idle := by decide

/-- FetchWordRuns: a word of 32 bits and one of 64. -/
theorem witness_FetchWordRuns :
    decodeTableWord 32 0xD510EFBE = some (.wordWrite 0x54#7 0x10#8 0xBEEF#16) ∧
    decodeTableWord 64 0x0024685BD510EFBE = some (.wordWrite 0x55#7 0x10#8 0xBEEF#16) := by decide

/-- RejectedShapesComplete and TransfersComplete: a ready machine with the smallest budget. -/
theorem witness_ready : (warm 1 []).ready = true ∧ 1 ≤ (warm 1 []).cfg.pollBudget := by decide

/-- InitCompletes and RefusedOutsideOrder, clause by clause. -/
theorem witness_RefusedOutsideOrder :
    ((cold 100).initialised = false ∧ (cold 100).trace.any (isWriteAt 0x0CC) = false) ∧ (warm 100 []).initialised = true ∧
    ((writePrescale 0xA5A50400#32 (cold 100)).initialised = false ∧
      (writePrescale 0xA5A50400#32 (cold 100)).trace.any (isWriteAt 0x0CC) = true) ∧
    ((busy 100 0 .polling none []).initialised = true ∧ (busy 100 0 .polling none []).seq ≠ .idle) := by decide

/-- ByteReadReturnsData: no failed poll at a budget of 1, and the most that a budget of 3 allows. -/
theorem witness_ByteReadReturnsData :
    ((warm 1 [0x3FFFFFFF#32, 0x5A#32]).ready = true ∧ ([] : List Word).length < (warm 1 []).cfg.pollBudget ∧
      (warm 1 [0x3FFFFFFF#32, 0x5A#32]).envScript = [] ++ 0x3FFFFFFF#32 :: 0x5A#32 :: [] ∧
      0x3FFFFFFF#32 &&& 0xC0000000#32 = 0#32) ∧
    ([0x40000000#32, 0x80000000#32].length < (warm 3 []).cfg.pollBudget ∧
      (∀ x ∈ [0x40000000#32, 0x80000000#32], x &&& 0xC0000000#32 ≠ 0#32)) :=
  ⟨⟨by decide, by decide, rfl, by decide⟩, by decide, by simp⟩

/-- WritesReturnOk: both operations, with one failed poll and the success on the last poll. -/
theorem witness_WritesReturnOk :
    (warm 2 [0x40000000#32, 0#32]).ready = true ∧
    [0x40000000#32].length < (warm 2 [0x40000000#32, 0#32]).cfg.pollBudget ∧
    (warm 2 [0x40000000#32, 0#32]).envScript = [0x40000000#32] ++ 0#32 :: [] ∧
    (∀ x ∈ [0x40000000#32], x &&& 0xC0000000#32 ≠ 0#32) ∧ 0#32 &&& 0xC0000000#32 = 0#32 ∧
    (∀ i ∈ [Instr.byteWrite 0#7 0#8 0#16, .wordWrite 0#7 0#8 0#16],
      i = .byteWrite 0#7 0#8 0#16 ∨ i = .wordWrite 0#7 0#8 0#16) :=
  ⟨by decide, by decide, rfl, by simp, by decide, by simp⟩

/-- TimeoutsReturnError: a budget of 1 spent on NAK alone, and a budget of 2 whose last answer has RIP. -/
theorem witness_TimeoutsReturnError :
    ((warm 1 [0x80000000#32]).ready = true ∧ ([] : List Word).length + 1 = (warm 1 [0x80000000#32]).cfg.pollBudget ∧
      (warm 1 [0x80000000#32]).envScript = [] ++ 0x80000000#32 :: [] ∧ 0x80000000#32 &&& 0xC0000000#32 ≠ 0#32) ∧
    ((warm 2 [0x80000000#32, 0x60000000#32]).ready = true ∧
      [0x80000000#32].length + 1 = (warm 2 [0x80000000#32, 0x60000000#32]).cfg.pollBudget ∧
      (warm 2 [0x80000000#32, 0x60000000#32]).envScript = [0x80000000#32] ++ 0x60000000#32 :: [] ∧
      (∀ x ∈ [0x80000000#32], x &&& 0xC0000000#32 ≠ 0#32) ∧ 0x60000000#32 &&& 0xC0000000#32 ≠ 0#32) :=
  ⟨⟨by decide, by decide, rfl, by decide⟩, by decide, by decide, rfl, by simp, by decide⟩

/-- ErrorKindCauses: each of the three error kinds is returned by some request. -/
theorem witness_ErrorKindCauses :
    (∃ t, exec (Request.mk 0#7 .read 0#8 .word 0#16).instr (warm 1 []) = .next t ∧
      (t.res == some .unsupportedOperation) = true) ∧
    (∃ t, exec (Request.mk 0#7 .write 0#8 .word 0#16).instr (warm 1 [0xE0000000#32]) = .next t ∧
      (t.res == some .busRecoveryFailed) = true) ∧
    (∃ t, exec (Request.mk 0#7 .read 0#8 .byte 0#16).instr (warm 1 [0x80000000#32]) = .next t ∧
      (t.res == some .deviceNotResponding) = true) :=
  ⟨next_of_nextIs (by decide), next_of_nextIs (by decide), next_of_nextIs (by decide)⟩

/-- AccessCounts: a read that ends in Ok on its only poll, and a write that spends the budget. -/
theorem witness_AccessCounts :
    (encodeRequest (tcfg 1).timingLo (tcfg 1).timingHi ⟨0#7, .read, 0#8, .byte, 0#16⟩ = some (0#32, 0x0024685A#32) ∧
      ∃ t, exec (Request.mk 0#7 .read 0#8 .byte 0#16).instr (warm 1 [0#32, 0x5A#32]) = .next t ∧
        (t.res == some (.ok (some 0x5A#8))) = true) ∧
    (encodeRequest (tcfg 2).timingLo (tcfg 2).timingHi ⟨0#7, .write, 0#8, .byte, 0#16⟩
        = some (0x80000000#32, 0x0024685A#32) ∧
      ∃ t, exec (Request.mk 0#7 .write 0#8 .byte 0#16).instr (warm 2 [0x40000000#32, 0x40000000#32]) = .next t ∧
        (t.res == some .busRecoveryFailed && t.pollCount == 2) = true) :=
  ⟨⟨by decide, next_of_nextIs (by decide)⟩, ⟨by decide, next_of_nextIs (by decide)⟩⟩

/-- EarlierResultsLeaveNoMark: two states with different remains, and an operation that runs from the first. -/
theorem witness_EarlierResultsLeaveNoMark :
    ∃ s s' : State, s ≠ s' ∧ s'.cfg = s.cfg ∧ s'.trace = s.trace ∧ s'.envScript = s.envScript ∧
      s'.envDraws = s.envDraws ∧ s'.initialised = s.initialised ∧ s'.seq = s.seq ∧ 1 ≤ s.cfg.pollBudget ∧
      encodeRequest s.cfg.timingLo s.cfg.timingHi ⟨0#7, .write, 0#8, .byte, 0#16⟩ ≠ none ∧
      ∃ t, exec (Request.mk 0#7 .write 0#8 .byte 0#16).instr s = .next t ∧ (t.res == some (.ok none)) = true :=
  ⟨warm 1 [0#32], { warm 1 [0#32] with res := some .busRecoveryFailed, pollCount := 1 },
    fun h => by have := congrArg State.pollCount h; revert this; decide,
    rfl, rfl, rfl, rfl, rfl, rfl, by decide, by decide, next_of_nextIs (by decide)⟩

/-- PollTransition and PollLoopEnds: POLLING with one poll left, where the status passes, and where it fails. -/
theorem witness_PollTransition :
    (∀ s ∈ [busy 2 1 .polling (some 0x80000000#32) [0x3FFFFFFF#32], busy 2 1 .polling (some 0x80000000#32) [0x40000000#32],
        busy 2 0 .polling none [0x80000000#32]],
      s.seq = .polling ∧ s.op = some ⟨0x55#7, .read, 0x10#8, .byte, 0#16⟩ ∧ s.pollCount < s.cfg.pollBudget) ∧
    ((busy 2 1 .polling none [0x3FFFFFFF#32]).envAnswer 0x0D0).getLsbD 31 = false ∧
    ((busy 2 1 .polling none [0x3FFFFFFF#32]).envAnswer 0x0D0).getLsbD 30 = false ∧
    ((busy 2 1 .polling none [0x40000000#32]).envAnswer 0x0D0).getLsbD 30 = true ∧
    (busy 2 1 .polling none []).pollCount + 1 = (busy 2 1 .polling none []).cfg.pollBudget ∧
    (busy 2 0 .polling none []).pollCount + 1 < (busy 2 0 .polling none []).cfg.pollBudget := by
  refine ⟨?_, by decide⟩
  intro s hs
  simp only [List.mem_cons, List.not_mem_nil, or_false] at hs
  rcases hs with rfl | rfl | rfl <;> exact ⟨rfl, rfl, by decide⟩

/-- TimeoutClassified: a last status for each clause. -/
theorem witness_TimeoutClassified :
    (busy 2 2 .timedOut (some 0x80000000#32) []).seq = .timedOut ∧
    (busy 2 2 .timedOut (some 0x80000000#32) []).op = some ⟨0x55#7, .read, 0x10#8, .byte, 0#16⟩ ∧
    (busy 2 2 .timedOut (some 0x80000000#32) []).lastStatus = some 0x80000000#32 ∧
    ((0xA0000000#32).getLsbD 29 = true) ∧ ((0xC0000000#32).getLsbD 30 = true) ∧
    ((0x80000000#32).getLsbD 29 = false ∧ (0x80000000#32).getLsbD 30 = false ∧ (0x80000000#32).getLsbD 31 = true) := by
  decide

/-- CompletionClassified: a read and a write. -/
theorem witness_CompletionClassified :
    (busy 2 1 .completed (some 0#32) []).seq = .completed ∧
    (busy 2 1 .completed (some 0#32) []).op = some ⟨0x55#7, .read, 0x10#8, .byte, 0#16⟩ ∧
    ({ busy 2 1 .completed (some 0#32) [] with op := some ⟨0x55#7, .write, 0x10#8, .byte, 0#16⟩ } : State).op.map
      Request.dir = some .write := by decide

/-- ExecIsStartThenSteps: a ready machine, a request with its words, and the next state. -/
theorem witness_ExecIsStartThenSteps :
    (warm 1 [0#32]).ready = true ∧ 1 ≤ (warm 1 [0#32]).cfg.pollBudget ∧
    encodeRequest (warm 1 [0#32]).cfg.timingLo (warm 1 [0#32]).cfg.timingHi ⟨0#7, .write, 0#8, .byte, 0#16⟩
      = some (0x80000000#32, 0x0024685A#32) ∧
    ∃ t, exec (Request.mk 0#7 .write 0#8 .byte 0#16).instr (warm 1 [0#32]) = .next t ∧ (t.res == some (.ok none)) = true :=
  ⟨by decide, by decide, by decide, next_of_nextIs (by decide)⟩

/-- CoreAccessesTaken: BASE is aligned, a request has its words, and the poller of a read ends in COMPLETED. -/
theorem witness_CoreAccessesTaken :
    (warm 1 [0#32]).cfg.base % 4 = 0 ∧ 1 ≤ (warm 1 [0#32]).cfg.pollBudget ∧
    encodeRequest (warm 1 [0#32]).cfg.timingLo (warm 1 [0#32]).cfg.timingHi ⟨0x55#7, .read, 0x10#8, .byte, 0#16⟩
      = some (0x54001000#32, 0x0024685B#32) ∧
    (poll ⟨0x55#7, .read, 0x10#8, .byte, 0#16⟩ 0x54001000#32 0x0024685B#32 (warm 1 [0#32])).seq = .completed := by decide

/-- InitCompletes and CoreAccessesTaken: a machine not yet brought up, with the discipline of the trace. -/
theorem witness_InitCompletes :
    TraceInv (cold 1) ∧ (cold 1).initialised = false ∧ (cold 1).prescaleWritten = false ∧ (cold 1).cfg.base % 4 = 0 :=
  ⟨⟨by decide, by decide, by decide⟩, rfl, by decide, by decide⟩

/-- WindowRefusals, clause by clause, at the edges of the window and of the masks. -/
theorem witness_WindowRefusals :
    ((1 : Nat) ≠ 4 ∧ (8 : Nat) ≠ 4) ∧ (0x10C9 % 4 ≠ 0 ∧ 0x10D3 % 4 ≠ 0) ∧
    (0x10C4 % 4 = 0 ∧ 0x10C4 < (warm 1 []).cfg.base + 0x0C8) ∧
    (0x10D8 % 4 = 0 ∧ (warm 1 []).cfg.base + 0x0D7 < 0x10D8) ∧ (warm 1 []).cfg.base % 4 = 0 ∧
    (0x01000000#32 &&& 0x81000000#32 = 0x01000000#32) ∧
    (0x80120000#32 &&& 0x01000000#32 = 0#32 ∧ 0x80120000#32 &&& 0x00FF0000#32 ≠ 0#32) ∧
    (0x02000000#32 &&& 0x1E000000#32 ≠ 0#32) ∧
    (0x20000000#32 &&& 0x1E000000#32 = 0#32 ∧ 0x20000000#32 &&& 0xE0000000#32 ≠ 0#32) := by decide

/-- WindowRefusals, PRESCALE and CMD: written by bring-up, written before it, not written; and the three early reads. -/
theorem witness_WindowRefusals_history :
    (warm 1 []).initialised = true ∧ (writePrescale 0xA5A50400#32 (cold 1)).trace.any (isWriteAt 0x0CC) = true ∧
    ((cold 1).initialised = false ∧ (cold 1).trace.any (isWriteAt 0x0CC) = false ∧
      0xA5A50100#32 ≠ (cold 1).cfg.prescale400k) ∧
    (cold 1).trace.any (isWriteAt 0x0C8) = false ∧
    ((writeCmd 0xD40010A7#32 (warm 1 [])).trace = [] ++ .write 0x0C8 0xD40010A7#32 :: [] ∧
      (0xD40010A7#32).getLsbD 31 = true ∧ ([] : List Event).any (isWriteAt 0x0C8) = false) ∧
    ((readCsc (writeCmd 0x54001000#32 (warm 1 [0x40000000#32]))).trace =
        [] ++ .write 0x0C8 0x54001000#32 :: [.read 0x0D0 0x40000000#32] ∧
      [Event.read 0x0D0 0x40000000#32].any (isWriteAt 0x0C8) = false ∧ 0x40000000#32 &&& 0xC0000000#32 ≠ 0#32) := by decide

/-- CommandReadAfterResolvingPoll: a read's trigger with its resolving poll, and a BYTE_READ that spends its budget. -/
theorem witness_CommandReadAfterResolvingPoll :
    (warm 1 []).cfg.base % 4 = 0 ∧ 1 ≤ (warm 1 []).cfg.pollBudget ∧
    ((readCsc (writeCmd 0x54001000#32 (warm 1 [0x3FFFFFFF#32]))).trace =
        [] ++ .write 0x0C8 0x54001000#32 :: [.read 0x0D0 0x3FFFFFFF#32] ∧
      [Event.read 0x0D0 0x3FFFFFFF#32].any (isWriteAt 0x0C8) = false ∧ (0x54001000#32).getLsbD 31 = false ∧
      Event.read 0x0D0 0x3FFFFFFF#32 ∈ [Event.read 0x0D0 0x3FFFFFFF#32] ∧ 0x3FFFFFFF#32 &&& 0xC0000000#32 = 0#32) ∧
    ∃ t, exec (Request.mk 0#7 .read 0#8 .byte 0#16).instr (warm 1 [0x80000000#32]) = .next t ∧
      (t.res == some .deviceNotResponding) = true :=
  ⟨by decide, by decide, by decide, next_of_nextIs (by decide)⟩

/-- PrescaleWrittenOnce: a write that is taken, and states where PRESCALE has been written, with accesses that are taken. -/
theorem witness_PrescaleWrittenOnce :
    write32 0x0CC 0xA5A50400#32 (cold 1) = .ok (writePrescale 0xA5A50400#32 (cold 1)) ∧
    (warm 1 []).prescaleWritten = true ∧ (writePrescale 0xA5A50400#32 (cold 1)).prescaleWritten = true ∧
    refusalOf (memWrite 0x10D0 4 0x0024685A#32 (warm 1 [])) = none ∧ refusalOf (memRead 0x10D0 4 (warm 1 [])) = none :=
  ⟨rfl, by decide, by decide, by decide, by decide⟩

/-- PersistentState: a step from a machine that has been brought up, and one from IDLE that runs a line. -/
theorem witness_PersistentState :
    (∃ t, step (busy 2 0 .polling none [0#32]) = .next t ∧ (t.seq == .completed) = true) ∧
    (∃ t, step { cold 2 with program := [.init] } = .next t ∧ (t.initialised) = true) :=
  ⟨next_of_nextIs (by decide), next_of_nextIs (by decide)⟩

/-- The ready machine has the invariant of the sequencer. -/
theorem warm_sequencerInv : SequencerInv (warm 2 []) where
  cfg       := by decide
  count     := by decide
  idle      := fun _ => ⟨rfl, rfl, rfl, rfl⟩
  busy      := fun h => absurd rfl h
  polling   := fun h => absurd h (by decide)
  completed := fun h => absurd h (by decide)
  timedOut  := fun h => absurd h (by decide)
  prescale  := fun _ => rfl
  inflight  := fun _ h => by cases h

/-- StepKeepsSequencerInv and BusSpeedAfterBringUp: a ready machine, which answers a next state. -/
theorem witness_StepKeepsSequencerInv :
    SequencerInv (warm 2 []) ∧ (warm 2 []).initialised = true ∧ step (warm 2 []) = .next (warm 2 []) :=
  ⟨warm_sequencerInv, rfl, rfl⟩

/-- A machine in POLLING with its records has the invariant of the sequencer. -/
theorem busy_sequencerInv : SequencerInv (busy 2 1 .polling (some 0x80000000#32) [0#32]) where
  cfg       := by decide
  count     := by decide
  idle      := fun h => absurd h (by decide)
  busy      := fun _ => ⟨rfl, _, _, _, rfl, rfl, rfl, rfl, by decide, by decide, by decide⟩
  polling   := fun _ => by decide
  completed := fun h => absurd h (by decide)
  timedOut  := fun h => absurd h (by decide)
  prescale  := fun _ => rfl
  inflight  := fun _ h => by cases h

/-- StepKeepsSequencerInv: a machine in the middle of an operation, which answers a next state. -/
theorem witness_StepKeepsSequencerInv_polling :
    SequencerInv (busy 2 1 .polling (some 0x80000000#32) [0#32]) ∧
      ∃ t, step (busy 2 1 .polling (some 0x80000000#32) [0#32]) = .next t ∧ (t.seq == .completed) = true :=
  ⟨busy_sequencerInv, next_of_nextIs (by decide)⟩

/-- A machine in COMPLETED with its records has the invariant of the sequencer. -/
theorem completed_sequencerInv : SequencerInv (busy 2 1 .completed (some 0#32) []) where
  cfg       := by decide
  count     := by decide
  idle      := fun h => absurd h (by decide)
  busy      := fun _ => ⟨rfl, _, _, _, rfl, rfl, rfl, rfl, by decide, by decide, by decide⟩
  polling   := fun h => absurd h (by decide)
  completed := fun _ => ⟨by decide, rfl, _, rfl, by decide⟩
  timedOut  := fun h => absurd h (by decide)
  prescale  := fun _ => rfl
  inflight  := fun _ h => by cases h

/-- CoreAccessesTaken: the classifier's read of CMD, from a state of the invariant. -/
theorem witness_CoreAccessesTaken_completed :
    SequencerInv (busy 2 1 .completed (some 0#32) []) ∧ (busy 2 1 .completed (some 0#32) []).seq = .completed ∧
    (busy 2 1 .completed (some 0#32) []).op = some ⟨0x55#7, .read, 0x10#8, .byte, 0#16⟩ ∧
    (busy 2 1 .completed (some 0#32) []).cfg.base % 4 = 0 := ⟨completed_sequencerInv, rfl, rfl, by decide⟩

/-- StepKeepsTraceInv: a machine with one whole write in its trace, and the next state. -/
theorem witness_StepKeepsTraceInv :
    ∃ s t : State, TraceInv s ∧ s.trace.length = 4 ∧ step s = .next t :=
  ⟨{ warm 2 [] with trace := [.write 0x0CC 0xA5A50400#32, .write 0x0D0 0x0024685A#32, .write 0x0C8 0x80000000#32,
      .read 0x0D0 0#32] }, _,
    ⟨by decide, by decide, by decide⟩, rfl, rfl⟩

end Sys2Proof.Tests
end

/-! PROOFS. Encoding (30_encoding.md): the words of WORD_WRITE. -/

namespace Sys2Proof

/-- WORD_WRITE always has words: the packed MASTER_ADDRESS with MAF 1, and the high payload byte in DATA (R96, R97). -/
theorem encode_wordWrite (lo : BitVec 8) (hi : BitVec 16) (a : TargetAddr) (cmd : Byte) (p : BitVec 16) :
    encode lo hi (.wordWrite a cmd p) =
      some (composeCmd .write (addrDevice a) true (masterPacked cmd p) (payloadHigh p), composeCsc lo hi (addrLsb a)) := rfl

/-- The low payload byte, zero extended, is the payload under the mask of its low byte. -/
theorem setWidth_payloadLow (p : BitVec 16) : (payloadLow p).setWidth 16 = p &&& 0xFF#16 := by
  calc (payloadLow p).setWidth 16
      = (p.setWidth 8).setWidth 16 := by rw [payloadLow, ← BitVec.setWidth_eq_extractLsb' (by decide)]
    _ = 0#8 ++ p.setWidth 8        := BitVec.setWidth_eq_append (by decide)
    _ = p &&& 0xFF#16              := (BitVec.and_setWidth_allOnes 8 8 p).symm

/-- Settles O8: R96 is read back field by field from the composed CMDWORD, with the low payload byte spelled as a mask. -/
theorem wordWritePacksMasterAddress : Obligations.WordWritePacksMasterAddress := by
  intro lo hi a cmd p
  refine ⟨_, _, encode_wordWrite lo hi a cmd p, cmdMaf_composeCmd .., ?master, ?high, ?low⟩
  case master => rw [cmdMasterAddress_composeCmd, masterPacked, setWidth_payloadLow]
  case high => exact (cmdMasterHigh_composeCmd ..).trans (masterPacked_high cmd p)
  case low => exact (cmdMasterLow_composeCmd ..).trans (masterPacked_low cmd p)

end Sys2Proof

/-! PROOFS. Encoder (40_encoder.md): the split of the address between the two words, and the rejected shapes. -/

namespace Sys2Proof

/-! ## The split of the address (R123) -/

/-- The address LSB is seen by bit 0 of CSCWORD alone: the other bits are those of the timing (R126). -/
theorem composeCsc_clear_lsb (lo : BitVec 8) (hi : BitVec 16) (lsb lsb' : Bool) :
    composeCsc lo hi lsb &&& 0xFFFFFFFE#32 = composeCsc lo hi lsb' &&& 0xFFFFFFFE#32 := by
  have hmask : 0xFFFFFFFE#32 = ~~~1#32 := by decide
  apply BitVec.eq_of_getLsbD_eq
  intro i _
  rcases Nat.eq_zero_or_pos i with rfl | hpos
  · simp [hmask]
  · simp [getLsbD_composeCsc, Nat.ne_of_gt hpos]

/-- An accepted request stays accepted under an address with the same bits 6:1, with the same CMD_VAL (R123). -/
theorem encodeRequest_readdress {lo : BitVec 8} {hi : BitVec 16} {r : Request} {b : TargetAddr} {c k : Word}
    (h : encodeRequest lo hi r = some (c, k)) (hb : addrDevice b = addrDevice r.addr) :
    encodeRequest lo hi { r with addr := b } = some (c, composeCsc lo hi (addrLsb b)) := by
  obtain ⟨-, ⟨hw, hd, rfl⟩ | ⟨hw, hd, rfl⟩ | ⟨hw, hd, rfl⟩⟩ := encodeRequest_cases h <;>
    simp [encodeRequest, hw, hd, hb]

/-- The device address of a word the encoder produces. -/
theorem encodeRequest_deviceAddress {lo : BitVec 8} {hi : BitVec 16} {r : Request} {c k : Word}
    (h : encodeRequest lo hi r = some (c, k)) : cmdDeviceAddress c = addrDevice r.addr := by
  obtain ⟨-, ⟨-, -, rfl⟩ | ⟨-, -, rfl⟩ | ⟨-, -, rfl⟩⟩ := encodeRequest_cases h <;>
    exact cmdDeviceAddress_composeCmd ..

/-- Settles O7: CMD_VAL takes the address only through `addrDevice`, CSC_VAL only through bit 0. -/
theorem addressSplit : Obligations.AddressSplit := by
  intro lo hi r b c k h
  obtain ⟨rfl, -⟩ := encodeRequest_cases h
  refine ⟨encodeRequest_deviceAddress h, cscAddrLsb_composeCsc .., fun hb => ?_⟩
  exact ⟨_, encodeRequest_readdress h hb, composeCsc_clear_lsb .., cscAddrLsb_composeCsc ..⟩

/-! ## Rejection (R132 to R134) -/

/-- The shapes the encoder rejects: every size that is neither Byte nor Word, and the word read (R132, R133). -/
theorem encodeRequest_eq_none {lo : BitVec 8} {hi : BitVec 16} {r : Request} :
    encodeRequest lo hi r = none ↔ r.width = .other ∨ (r.width = .word ∧ r.dir = .read) := by
  obtain ⟨a, d, cmd, w, p⟩ := r
  cases w <;> cases d <;> simp [encodeRequest]

/-- Settles O11: the rejected shapes are named by `dir` and `width`, so requests that agree in those fare alike. -/
theorem rejectionByShapeAlone : Obligations.RejectionByShapeAlone := by
  intro lo hi r
  refine ⟨encodeRequest_eq_none, fun lo' hi' a cmd p => ?_⟩
  rw [Bool.eq_iff_iff]
  simp only [Option.isSome_iff_ne_none, ne_eq, encodeRequest_eq_none]

namespace Machine

/-- A bus operation of a rejected shape, presented when the HOST may, does nothing but deliver UnsupportedOperation. -/
theorem exec_rejected {s : State} {i : Instr} {r : Request} (hs : s.ready = true) (hi : i.request = some r)
    (hr : r.width = .other ∨ (r.width = .word ∧ r.dir = .read)) :
    exec i s = .next (deliver .unsupportedOperation s) :=
  (exec_request hi s).trans (execute_rejected hs (encodeRequest_eq_none.2 hr))

/-- Settles O15: both operations have a rejected shape, and `deliver` writes RES and the port's reply alone. -/
theorem rejectedShapesComplete : Obligations.RejectedShapesComplete := by
  constructor
  case left => exact fun s a cmd p hs => exec_rejected hs rfl (.inr ⟨rfl, rfl⟩)
  case right => exact fun s a dir cmd p hs => exec_rejected hs rfl (.inl rfl)

end Machine

end Sys2Proof

/-! PROOFS. Poller (41_poller.md): the loop as single steps of the machine, and its end within the budget. -/

namespace Sys2Proof.Machine

/-- In POLLING one step of the machine is one iteration of the loop (R160, rows 2 to 4). -/
theorem step_polling {s : State} {r : Request} (hs : s.seq = .polling) (ho : s.op = some r) :
    step s = .next (pollOnce s) := by
  rw [step_busy (by simp [hs]) ho, advance, hs]

/-- The poll loop with `n` iterations at most after the first is a run of one to `n + 1` steps of the machine. -/
theorem run_pollLoop {r : Request} (n : Nat) {s : State} (hs : s.seq = .polling) (ho : s.op = some r) :
    ∃ k ≤ n, Host.Core.run core (k + 1) s = .next (pollLoop n s) := by
  induction n generalizing s with
  | zero => exact ⟨0, le_rfl, run_succ (step_polling hs ho) 0⟩
  | succ n ih =>
    by_cases again : (pollOnce s).seq = .polling
    · obtain ⟨k, hk, hrun⟩ := ih again ((pollOnce_same s).op.trans ho)
      refine ⟨k + 1, by omega, ?_⟩
      rw [run_succ (step_polling hs ho), hrun, pollLoop, if_pos again]
    · refine ⟨0, by omega, ?_⟩
      rw [run_succ (step_polling hs ho), run_zero, pollLoop, if_neg again]

/-- A run of the poll loop ends in COMPLETED or TIMEDOUT, whatever the last answer. -/
theorem PollRun.ended {s t : State} {failed : List Word} {last : Word} (h : PollRun s failed last t) :
    t.seq = .completed ∨ t.seq = .timedOut := by
  cases hr : resolved last with
  | true => exact .inl (h.passed hr).1
  | false => exact .inr (h.spent hr).2.1

/-- Settles O30: the steps from POLLING are the poll loop on the polls that are left, and every run of that loop ends. -/
theorem pollLoopEnds : Obligations.PollLoopEnds := by
  intro s r hs ho hb
  obtain ⟨n, hn⟩ : ∃ n, s.pollCount + (n + 1) = s.cfg.pollBudget := ⟨s.cfg.pollBudget - s.pollCount - 1, by omega⟩
  obtain ⟨k, hk, hrun⟩ := run_pollLoop n hs ho
  obtain ⟨failed, last, hloop⟩ := pollLoop_spec n s hs hn
  exact ⟨k + 1, pollLoop n s, by omega, hrun, hloop.ended⟩

end Sys2Proof.Machine

/-! PROOFS. Classifier (42_classifier.md): the step out of TIMEDOUT. -/

namespace Sys2Proof.Machine

/-- R174, R176: LHE or RIP decides the result, whatever NAK is. -/
theorem timeoutResult_busRecoveryFailed {w : Word} (h : flagLhe w = true ∨ flagRip w = true) :
    timeoutResult w = .busRecoveryFailed :=
  if_pos (Bool.or_eq_true_iff.2 h)

/-- R175: NAK decides the result once LHE and RIP are clear. -/
theorem timeoutResult_deviceNotResponding {w : Word} (hl : flagLhe w = false) (hr : flagRip w = false)
    (hn : flagNak w = true) : timeoutResult w = .deviceNotResponding := by
  simp [timeoutResult, hl, hr, hn]

/-- In TIMEDOUT one step of the machine is the classification of the last status (R160, row 6). -/
theorem step_timedOut {s : State} {r : Request} {w : Word} (hs : s.seq = .timedOut) (ho : s.op = some r)
    (hl : s.lastStatus = some w) : step s = .next (finish (timeoutResult w) (settleInflight s)) := by
  rw [step_busy (by simp [hs]) ho, advance, hs]
  exact congrArg _ (classify_timedOut r.dir hs hl)

/-- Settles O27: the step finishes the operation with the result that the flags of LAST_STATUS decide. -/
theorem timeoutClassified : Obligations.TimeoutClassified := by
  intro s r w hs ho hl
  refine ⟨_, step_timedOut hs ho hl, finish_seq .., ?hardware, ?nak⟩
  case hardware => exact fun h => (finish_res ..).trans (congrArg some (timeoutResult_busRecoveryFailed h))
  case nak =>
    exact fun lhe rip nak => (finish_res ..).trans (congrArg some (timeoutResult_deviceNotResponding lhe rip nak))

end Sys2Proof.Machine

/-! PROOFS. Decoder (30_encoding.md): the operation, or the refusal, that each shape of CMDWORD stands for. -/

namespace Sys2Proof

/-! ## Shapes of CMDWORD (R101, R104) -/

variable {c k : Word}

theorem decodeWords_eq_ok {i : Instr} :
    decodeWords c k = .ok i ↔
      reservedClock k = none ∧ reservedCommand c = none ∧ readCommand c (cscAddrLsb k) = i := by
  unfold decodeWords
  split <;> simp [*]

theorem decodeWords_byteRead (hk : reservedClock k = none) (hm : cmdMaf c = false) (hh : cmdMasterHigh c = 0#8)
    (hd : cmdDirection c = .read) :
    decodeWords c k = .ok (.byteRead (joinAddr (cmdDeviceAddress c) (cscAddrLsb k)) (cmdMasterLow c) 0) := by
  simp [decodeWords_eq_ok, reservedCommand, readCommand, hk, hm, hh, hd]

theorem decodeWords_byteWrite (hk : reservedClock k = none) (hm : cmdMaf c = false) (hh : cmdMasterHigh c = 0#8)
    (hd : cmdDirection c = .write) :
    decodeWords c k = .ok (.byteWrite (joinAddr (cmdDeviceAddress c) (cscAddrLsb k)) (cmdMasterLow c)
      ((cmdData c).setWidth 16)) := by
  simp [decodeWords_eq_ok, reservedCommand, readCommand, hk, hm, hh, hd]

theorem decodeWords_wordWrite (hk : reservedClock k = none) (hm : cmdMaf c = true) (hd : cmdDirection c = .write) :
    decodeWords c k = .ok (.wordWrite (joinAddr (cmdDeviceAddress c) (cscAddrLsb k)) (cmdMasterHigh c)
      (cmdData c ++ cmdMasterLow c)) := by
  simp [decodeWords_eq_ok, reservedCommand, readCommand, hk, hm, hd]

theorem decodeWords_wordRead (hk : reservedClock k = none) (hm : cmdMaf c = true) (hd : cmdDirection c = .read) :
    decodeWords c k = .error .reservedWordRead := by
  simp [decodeWords, reservedCommand, hk, hm, hd]

theorem decodeWords_masterHigh (hk : reservedClock k = none) (hm : cmdMaf c = false) (hh : cmdMasterHigh c ≠ 0#8) :
    decodeWords c k = .error .reservedMasterHigh := by
  simp [decodeWords, reservedCommand, hk, hm, hh]

/-- The shapes that decode are the three of R101. -/
theorem reservedCommand_eq_none :
    reservedCommand c = none ↔
      (cmdMaf c = false ∧ cmdMasterHigh c = 0#8) ∨ (cmdMaf c = true ∧ cmdDirection c = .write) := by
  cases hm : cmdMaf c <;> cases hd : cmdDirection c <;> simp [reservedCommand, hm, hd]

/-! ## Decoding what the encoder made (R130) -/

/-- A byte, zero extended, is that byte under a zero byte. -/
theorem setWidth_byte (x : Byte) : x.setWidth 16 = 0#8 ++ x := BitVec.setWidth_eq_append (by decide)

/-- A payload without a high byte is its low byte, zero extended. -/
theorem payloadLow_setWidth {p : BitVec 16} (h : payloadHigh p = 0#8) : (payloadLow p).setWidth 16 = p := by
  rw [setWidth_byte, ← h, payload_halves]

/-- The words of a request decode to its own row, where the operand bits that the row does not use are zero. -/
theorem decodeWords_encodeRequest {lo : BitVec 8} {hi : BitVec 16} {r : Request}
    (h : encodeRequest lo hi r = some (c, k)) (hw : r.instr.wellFormed = true) : decodeWords c k = .ok r.instr := by
  obtain ⟨a, d, cmd, w, p⟩ := r
  obtain ⟨rfl, ⟨rfl, rfl, rfl⟩ | ⟨rfl, rfl, rfl⟩ | ⟨rfl, rfl, rfl⟩⟩ := encodeRequest_cases h
  · obtain rfl : p = 0 := by simpa [Request.instr, Instr.wellFormed] using hw
    rw [decodeWords_byteRead] <;> simp [Request.instr]
  · have hp : payloadHigh p = 0#8 := by simpa [Request.instr, Instr.wellFormed, payloadHigh] using hw
    rw [decodeWords_byteWrite] <;> simp [Request.instr, payloadLow_setWidth hp]
  · rw [decodeWords_wordWrite] <;> simp [Request.instr]

/-- A request of one of the three rows of R101 has words. -/
theorem encode_isSome {i : Instr} (lo : BitVec 8) (hi : BitVec 16)
    (hm : i.mnemonic = "BYTE_READ" ∨ i.mnemonic = "BYTE_WRITE" ∨ i.mnemonic = "WORD_WRITE") :
    ∃ r c k, i = r.instr ∧ encodeRequest lo hi r = some (c, k) := by
  cases i with
  | byteRead a c p => exact ⟨⟨a, .read, c, .byte, p⟩, _, _, rfl, rfl⟩
  | byteWrite a c p => exact ⟨⟨a, .write, c, .byte, p⟩, _, _, rfl, rfl⟩
  | wordWrite a c p => exact ⟨⟨a, .write, c, .word, p⟩, _, _, rfl, rfl⟩
  | wordRead | other | init | caps => simp [Instr.mnemonic] at hm

/-- The encoder on an operation is the encoder on its request. -/
@[simp] theorem encode_instr (lo : BitVec 8) (hi : BitVec 16) (r : Request) :
    encode lo hi r.instr = encodeRequest lo hi r := by
  simp [encode]

/-- Settles O2: the pair of a request decodes to its row, and the bytes of a pair decode as the pair does. -/
theorem decodeOfEncode : Obligations.DecodeOfEncode := by
  intro lo hi i hw hm
  obtain ⟨r, c, k, rfl, he⟩ := encode_isSome lo hi hm
  have hd := decodeWords_encodeRequest he hw
  exact ⟨c, k, (encode_instr lo hi r).trans he, hd, decode_bytesOfPair_ok hd⟩

/-! ## Encoding what the decoder read -/

/-- A CMDWORD is the word composed of its own fields (R91). -/
theorem composeCmd_fields (c : Word) :
    composeCmd (cmdDirection c) (cmdDeviceAddress c) (cmdMaf c) (cmdMasterAddress c) (cmdData c) = c := by
  have hd : ∀ i, decide (i = 31 ∧ cmdDirection c = .write) = (decide (i = 31) && c.getLsbD 31) := by
    intro i
    cases h : c.getLsbD 31 <;> simp only [cmdDirection, h] <;> simp
  apply BitVec.eq_of_getLsbD_eq
  intro i hi
  simp only [getLsbD_composeCmd, hd, cmdDeviceAddress, cmdMaf, cmdMasterAddress, cmdData, BitVec.getLsbD_extractLsb']
  grind

/-- An unreserved CSCWORD is the word composed of its own fields (R92, R105). -/
theorem composeCsc_fields (h : reservedClock k = none) :
    composeCsc (cscTimingLo k) (cscTimingHi k) (cscAddrLsb k) = k := by
  have hr : k.extractLsb' 25 7 = 0#7 :=
    (and_run_eq_zero (by decide) (by decide)).1 (reservedClock_eq_none.1 h)
  apply BitVec.eq_of_getLsbD_eq
  intro i hi
  have hz := field_eq_zero.1 hr (i - 25)
  simp only [getLsbD_composeCsc, cscTimingLo, cscTimingHi, cscAddrLsb, BitVec.getLsbD_extractLsb']
  grind

/-- Clearing the low byte of a CMDWORD clears its DATA and nothing else. -/
theorem composeCmd_clear_data (d : Direction) (dev : BitVec 6) (maf : Bool) (ma : BitVec 16) (da : Byte) :
    composeCmd d dev maf ma da &&& 0xFFFFFF00#32 = composeCmd d dev maf ma 0#8 := by
  have hm : 0xFFFFFF00#32 = ~~~((BitVec.allOnes 8).setWidth 32) := by decide
  apply BitVec.eq_of_getLsbD_eq
  intro i hi
  simp only [hm, BitVec.getLsbD_and, getLsbD_composeCmd, BitVec.getLsbD_not, BitVec.getLsbD_setWidth,
    BitVec.getLsbD_allOnes]
  by_cases h8 : i < 8
  · simp [h8, hi]; omega
  · simp [h8, hi, BitVec.getLsbD_of_ge da i (by omega)]

/-- MASTER_ADDRESS is its two bytes. -/
theorem cmdMasterAddress_bytes (c : Word) : cmdMasterAddress c = cmdMasterHigh c ++ cmdMasterLow c := by
  apply BitVec.eq_of_getLsbD_eq
  intro i hi
  simp only [cmdMasterAddress, cmdMasterHigh, cmdMasterLow, BitVec.getLsbD_append, BitVec.getLsbD_extractLsb']
  grind

/-- A plain command byte is the whole MASTER_ADDRESS of a word without a high byte (R95). -/
theorem masterPlain_cmdMasterLow (h : cmdMasterHigh c = 0#8) : masterPlain (cmdMasterLow c) = cmdMasterAddress c := by
  rw [cmdMasterAddress_bytes, h, masterPlain, setWidth_byte]

@[simp] theorem payloadLow_append (x y : Byte) : payloadLow (x ++ y) = y := BitVec.extractLsb'_append_eq_right

@[simp] theorem payloadHigh_append (x y : Byte) : payloadHigh (x ++ y) = x := BitVec.extractLsb'_append_eq_left

@[simp] theorem payloadLow_setWidth_byte (x : Byte) : payloadLow (x.setWidth 16) = x := by
  rw [setWidth_byte, payloadLow_append]

@[simp] theorem payloadHigh_setWidth_byte (x : Byte) : payloadHigh (x.setWidth 16) = 0#8 := by
  rw [setWidth_byte, payloadHigh_append]

/-- Everything that decodes: an unreserved companion with a word of one of the three shapes of R101. -/
theorem decodeWords_cases {i : Instr} (h : decodeWords c k = .ok i) :
    reservedClock k = none ∧
      ((cmdMaf c = false ∧ cmdMasterHigh c = 0#8 ∧ cmdDirection c = .read ∧
          i = .byteRead (joinAddr (cmdDeviceAddress c) (cscAddrLsb k)) (cmdMasterLow c) 0) ∨
       (cmdMaf c = false ∧ cmdMasterHigh c = 0#8 ∧ cmdDirection c = .write ∧
          i = .byteWrite (joinAddr (cmdDeviceAddress c) (cscAddrLsb k)) (cmdMasterLow c) ((cmdData c).setWidth 16)) ∨
       (cmdMaf c = true ∧ cmdDirection c = .write ∧
          i = .wordWrite (joinAddr (cmdDeviceAddress c) (cscAddrLsb k)) (cmdMasterHigh c) (cmdData c ++ cmdMasterLow c))) := by
  obtain ⟨hk, hc, rfl⟩ := decodeWords_eq_ok.1 h
  refine ⟨hk, ?_⟩
  rcases reservedCommand_eq_none.1 hc with ⟨hm, hh⟩ | ⟨hm, hd⟩
  · cases hd : cmdDirection c <;> simp [readCommand, hm, hh, hd]
  · simp [readCommand, hm, hd]

/-- The words of a BYTE_READ (R127). -/
theorem encode_byteRead (lo : BitVec 8) (hi : BitVec 16) (a : TargetAddr) (cmd : Byte) (p : BitVec 16) :
    encode lo hi (.byteRead a cmd p) =
      some (composeCmd .read (addrDevice a) false (masterPlain cmd) 0#8, composeCsc lo hi (addrLsb a)) := rfl

/-- The words of a BYTE_WRITE (R128). -/
theorem encode_byteWrite (lo : BitVec 8) (hi : BitVec 16) (a : TargetAddr) (cmd : Byte) (p : BitVec 16) :
    encode lo hi (.byteWrite a cmd p) =
      some (composeCmd .write (addrDevice a) false (masterPlain cmd) (payloadLow p), composeCsc lo hi (addrLsb a)) := rfl

/-- Settles O3: the decoded operation holds the fields of the pair, and a pair is composed of its fields. -/
theorem encodeOfDecode : Obligations.EncodeOfDecode := by
  intro c k i h
  obtain ⟨hk, ⟨hm, hh, hd, rfl⟩ | ⟨hm, hh, hd, rfl⟩ | ⟨hm, hd, rfl⟩⟩ := decodeWords_cases h <;>
    have hc := composeCmd_fields c <;> rw [hm, hd] at hc
  case inl =>
    refine ⟨rfl, by simp [hd], fun _ => ?_⟩
    have hz : c &&& 0xFFFFFF00#32 = _ := hc ▸ composeCmd_clear_data ..
    rw [encode_byteRead, addrDevice_joinAddr, addrLsb_joinAddr, composeCsc_fields hk, masterPlain_cmdMasterLow hh, hz]
  case inr.inl =>
    refine ⟨?_, fun _ => ?_, by simp [hd]⟩
    · exact beq_iff_eq.2 (payloadHigh_setWidth_byte (cmdData c))
    · rw [encode_byteWrite, addrDevice_joinAddr, addrLsb_joinAddr, composeCsc_fields hk, masterPlain_cmdMasterLow hh,
        payloadLow_setWidth_byte, hc]
  case inr.inr =>
    refine ⟨rfl, fun _ => ?_, by simp [hd]⟩
    rw [encode_wordWrite, addrDevice_joinAddr, addrLsb_joinAddr, composeCsc_fields hk, masterPacked_eq,
      payloadLow_append, payloadHigh_append, ← cmdMasterAddress_bytes, hc]

/-! ## Masks of the opcode table -/

section

variable {m p : Word} (h : c &&& m = p)
include h

/-- What a masked word says of a bit under the mask. -/
theorem getLsbD_of_and {i : Nat} (hm : m.getLsbD i = true) : c.getLsbD i = p.getLsbD i := by
  rw [← h, BitVec.getLsbD_and, hm, Bool.and_true]

theorem cmdMaf_of_and (hm : cmdMaf m = true) : cmdMaf c = cmdMaf p := getLsbD_of_and h hm

theorem cmdDirection_of_and (hm : cmdDirection m = .write) : cmdDirection c = cmdDirection p := by
  have hm : m.getLsbD 31 = true := by simpa [cmdDirection] using hm
  simp only [cmdDirection, getLsbD_of_and h hm]

theorem cmdMasterHigh_of_and (hm : cmdMasterHigh m = BitVec.allOnes 8) : cmdMasterHigh c = cmdMasterHigh p := by
  calc cmdMasterHigh c
      = cmdMasterHigh c &&& cmdMasterHigh m := by rw [hm, BitVec.and_allOnes]
    _ = cmdMasterHigh p                     := by rw [← h]; exact BitVec.extractLsb'_and.symm

end

/-- Bits 23:16 by their mask. -/
theorem cmdMasterHigh_eq_zero : cmdMasterHigh c = 0#8 ↔ c &&& 0x00FF0000#32 = 0#32 :=
  (and_run_eq_zero (by decide) (by decide)).symm

/-- Two rows that a word belongs to overlap. -/
theorem OpcodeRow.overlaps_of_holds {a b : OpcodeRow} {w : Word} (ha : a.holds w = true) (hb : b.holds w = true) :
    a.overlaps b = true := by
  simp only [OpcodeRow.holds, beq_iff_eq] at ha hb
  rw [OpcodeRow.overlaps, beq_iff_eq, ← ha, ← hb]
  apply BitVec.eq_of_getLsbD_eq
  intro i _
  cases ham : a.mask.getLsbD i <;> cases hbm : b.mask.getLsbD i <;> simp [ham, hbm]

/-- No two rows of R101 overlap. -/
theorem opcodeRows_disjoint : ∀ a ∈ opcodeRows, ∀ b ∈ opcodeRows, a.overlaps b = true → a = b := by decide

/-- Settles O4: the rows are disjoint by their masks, and each row's mask fixes the shape that decodes to its operation. -/
theorem rowsOfTableDecode : Obligations.RowsOfTableDecode := by
  refine ⟨fun w a b ha hb hwa hwb => opcodeRows_disjoint a ha b hb (OpcodeRow.overlaps_of_holds hwa hwb), ?_⟩
  intro w k row hrow hw hk
  have hw : w &&& row.mask = row.pattern := by simpa [OpcodeRow.holds] using hw
  simp only [opcodeRows, List.mem_cons, List.not_mem_nil, or_false] at hrow
  rcases hrow with rfl | rfl | rfl
  · exact ⟨_, decodeWords_byteRead hk (cmdMaf_of_and hw rfl) (cmdMasterHigh_of_and hw rfl)
      (cmdDirection_of_and hw rfl), rfl⟩
  · exact ⟨_, decodeWords_byteWrite hk (cmdMaf_of_and hw rfl) (cmdMasterHigh_of_and hw rfl)
      (cmdDirection_of_and hw rfl), rfl⟩
  · exact ⟨_, decodeWords_wordWrite hk (cmdMaf_of_and hw rfl) (cmdDirection_of_and hw rfl), rfl⟩

/-- A companion with a reserved bit set is refused, whatever the command (R105). -/
theorem decodeWords_reservedClock (h : reservedClock k ≠ none) (c : Word) :
    decodeWords c k = .error .reservedClockBits ∨ decodeWords c k = .error .clockFlagBits := by
  by_cases hr : cscReserved k = 0#4
  · by_cases hf : cscFlagBits k = 0#3
    · exact absurd (by simp [reservedClock, hr, hf]) h
    · exact .inr (by simp [decodeWords, reservedClock, hr, hf])
  · exact .inl (by simp [decodeWords, reservedClock, hr])

/-- Settles O5: each mask fixes the shape of the word, and so the operation or the refusal. -/
theorem reservedWordsRefused : Obligations.ReservedWordsRefused := by
  refine ⟨?wordRead, ?high, ?byteRead, ?byteWrite, ?wordWrite, ?clock⟩
  case wordRead =>
    exact fun c k hk hc => decodeWords_wordRead (reservedClock_eq_none.2 hk) (cmdMaf_of_and hc rfl)
      (cmdDirection_of_and hc rfl)
  case high =>
    exact fun c k hk hc hh => decodeWords_masterHigh (reservedClock_eq_none.2 hk) (cmdMaf_of_and hc rfl)
      (mt cmdMasterHigh_eq_zero.1 hh)
  case byteRead =>
    exact fun c k hk hc => ⟨_, _, decodeWords_byteRead (reservedClock_eq_none.2 hk) (cmdMaf_of_and hc rfl)
      (cmdMasterHigh_of_and hc rfl) (cmdDirection_of_and hc rfl)⟩
  case byteWrite =>
    exact fun c k hk hc => ⟨_, _, _, decodeWords_byteWrite (reservedClock_eq_none.2 hk) (cmdMaf_of_and hc rfl)
      (cmdMasterHigh_of_and hc rfl) (cmdDirection_of_and hc rfl)⟩
  case wordWrite =>
    exact fun c k hk hc => ⟨_, _, _, decodeWords_wordWrite (reservedClock_eq_none.2 hk) (cmdMaf_of_and hc rfl)
      (cmdDirection_of_and hc rfl)⟩
  case clock => exact fun c k hk => decodeWords_reservedClock (mt reservedClock_eq_none.1 hk) c

/-- Settles O1: the decoder evaluated on the six words. -/
theorem tableWordsDecode : Obligations.TableWordsDecode := by
  refine ⟨?_, ?_, ?_, ?_, ?_, ?_⟩ <;> decide

end Sys2Proof

/-! PROOFS. Encoder (40_encoder.md): the fields of the words, what they determine, and the transaction they start. -/

namespace Sys2Proof

/-! ## CMDWORD as its five fields -/

/-- A field masked out and shifted down is that field, zero extended. -/
theorem and_run_shiftRight {w : Word} {p l : Nat} {m : Word} (h : p + l ≤ 32)
    (hm : m = (BitVec.allOnes l).setWidth 32 <<< p) : (w &&& m) >>> p = (w.extractLsb' p l).setWidth 32 := by
  apply BitVec.eq_of_getLsbD_eq
  intro i hi
  subst hm
  simp only [BitVec.getLsbD_ushiftRight, BitVec.getLsbD_and, BitVec.getLsbD_shiftLeft, BitVec.getLsbD_setWidth,
    BitVec.getLsbD_allOnes, BitVec.getLsbD_extractLsb']
  by_cases hl : i < l
  · simp [hl, hi, show p + i < 32 by omega]
  · simp [hl]

/-- A word with bits from `p` up alone and one with bits below `p` alone: their OR is their sum. -/
theorem or_eq_add {x y : Word} (p : Nat) (hx : ∀ i < p, x.getLsbD i = false) (hy : ∀ i, p ≤ i → y.getLsbD i = false) :
    x ||| y = x + y := by
  refine (BitVec.add_eq_or_of_and_eq_zero x y ?_).symm
  apply BitVec.eq_of_getLsbD_eq
  intro i _
  rw [BitVec.getLsbD_and, BitVec.getLsbD_zero]
  rcases Nat.lt_or_ge i p with h | h
  · rw [hx i h, Bool.false_and]
  · rw [hy i h, Bool.and_false]

/-- A bit masked out and shifted down. -/
theorem and_bit_shiftRight {w : Word} {p : Nat} {m : Word} (h : p + 1 ≤ 32)
    (hm : m = (BitVec.allOnes 1).setWidth 32 <<< p) :
    (w &&& m) >>> p = if w.getLsbD p then 1#32 else 0#32 := by
  rw [and_run_shiftRight h hm]
  have he : w.extractLsb' p 1 = BitVec.ofBool (w.getLsbD p) := by
    apply BitVec.eq_of_getLsbD_eq
    intro i hi
    obtain rfl : i = 0 := by omega
    simp
  cases hb : w.getLsbD p <;> simp [he, hb]

section

variable (d : Direction) (dev : BitVec 6) (maf : Bool) (ma : BitVec 16) (da : Byte)

/-- The five fields of a composed CMDWORD stand in places of their own, so their OR is their sum (R125). -/
theorem composeCmd_eq_add :
    composeCmd d dev maf ma da =
      ((if d = .write then 1#32 else 0#32) <<< 31) + (dev.setWidth 32 <<< 25)
        + ((if maf then 1#32 else 0#32) <<< 24) + (ma.setWidth 32 <<< 8) + da.setWidth 32 := by
  rw [composeCmd, or_eq_add 8, or_eq_add 24, or_eq_add 25, or_eq_add 31]
  all_goals
    intro i hi
    simp only [BitVec.getLsbD_or, BitVec.getLsbD_shiftLeft, BitVec.getLsbD_setWidth]
    grind

/-- Masking and shifting a composed CMDWORD gives each field back (R125). -/
theorem composeCmd_readBack :
    (composeCmd d dev maf ma da &&& 0x80000000#32) >>> 31 = (if d = .write then 1#32 else 0#32) ∧
    (composeCmd d dev maf ma da &&& 0x7E000000#32) >>> 25 = dev.setWidth 32 ∧
    (composeCmd d dev maf ma da &&& 0x01000000#32) >>> 24 = (if maf then 1#32 else 0#32) ∧
    (composeCmd d dev maf ma da &&& 0x00FFFF00#32) >>> 8 = ma.setWidth 32 ∧
    composeCmd d dev maf ma da &&& 0x000000FF#32 = da.setWidth 32 := by
  refine ⟨?dir, ?dev, ?maf, ?master, ?data⟩
  case dir =>
    have hd : (composeCmd d dev maf ma da).getLsbD 31 = decide (d = .write) := by
      simp only [getLsbD_composeCmd]; grind
    rw [and_bit_shiftRight (p := 31) (by decide) (by decide), hd]
    simp only [decide_eq_true_eq]
  case dev =>
    rw [and_run_shiftRight (p := 25) (l := 6) (by decide) (by decide)]
    exact congrArg _ (cmdDeviceAddress_composeCmd ..)
  case maf =>
    rw [and_bit_shiftRight (p := 24) (by decide) (by decide)]
    exact congrArg (fun b : Bool => if b then 1#32 else 0#32) (cmdMaf_composeCmd ..)
  case master =>
    rw [and_run_shiftRight (p := 8) (l := 16) (by decide) (by decide)]
    exact congrArg _ (cmdMasterAddress_composeCmd ..)
  case data =>
    have h := and_run_shiftRight (w := composeCmd d dev maf ma da) (p := 0) (l := 8) (m := 0xFF#32) (by decide) (by decide)
    rw [BitVec.ushiftRight_zero] at h
    exact h.trans (congrArg _ (cmdData_composeCmd ..))

end

/-- CMD_VAL of every accepted request, with the five values of its fields (R94 to R97, R124; logs 21, 22). -/
theorem encodeRequest_cmdVal {lo : BitVec 8} {hi : BitVec 16} {r : Request} {c k : Word}
    (h : encodeRequest lo hi r = some (c, k)) :
    c = composeCmd r.dir (addrDevice r.addr) (decide (r.width = .word))
      (if r.width = .word then r.cmd ++ payloadLow r.payload else r.cmd.setWidth 16)
      (if r.dir = .read then 0#8 else if r.width = .word then payloadHigh r.payload else payloadLow r.payload) := by
  obtain ⟨-, ⟨hw, hd, rfl⟩ | ⟨hw, hd, rfl⟩ | ⟨hw, hd, rfl⟩⟩ := encodeRequest_cases h <;>
    simp [hw, hd, masterPlain, masterPacked_eq]

/-- Settles O6: CMD_VAL is composed of the five field values, which stand apart. -/
theorem commandFieldsReadBack : Obligations.CommandFieldsReadBack := by
  intro lo hi r c k dir dev maf master data h hdir hdev hmaf hmaster hdata
  have hc := encodeRequest_cmdVal h
  generalize hma : (if r.width = .word then r.cmd ++ payloadLow r.payload else r.cmd.setWidth 16) = ma at hc
  generalize hda : (if r.dir = .read then 0#8 else if r.width = .word then payloadHigh r.payload
    else payloadLow r.payload) = da at hc
  have hmaf : maf = if decide (r.width = .word) then 1#32 else 0#32 := by simpa using hmaf
  have hmaster : master = ma.setWidth 32 := by
    rw [hmaster, ← hma, apply_ite (BitVec.setWidth 32)]
    rfl
  have hdata : data = da.setWidth 32 := by
    rw [hdata, ← hda, apply_ite (BitVec.setWidth 32), apply_ite (BitVec.setWidth 32)]
    rfl
  subst hc hdir hdev hmaf hmaster hdata
  exact ⟨rfl, composeCmd_eq_add .., composeCmd_readBack ..⟩

/-! ## The properties of 95_test_vectors.md section 3.1 -/

/-- The bits 31:25 of a CSC_VAL are clear (R126; log 23). -/
theorem composeCsc_upper (lo : BitVec 8) (hi : BitVec 16) (lsb : Bool) :
    (composeCsc lo hi lsb).extractLsb' 25 7 = 0#7 :=
  (and_run_eq_zero (by decide) (by decide)).1 (reservedClock_eq_none.1 (reservedClock_composeCsc lo hi lsb))

/-- The bytes of the CMD_VAL of a byte operation (R95, R97, R127, R128). -/
theorem encodeRequest_byte {lo : BitVec 8} {hi : BitVec 16} {r : Request} {c k : Word}
    (h : encodeRequest lo hi r = some (c, k)) (hw : r.width = .byte) :
    cmdMasterHigh c = 0#8 ∧ cmdMasterLow c = r.cmd ∧
      cmdData c = if r.dir = .write then payloadLow r.payload else 0#8 := by
  obtain ⟨-, ⟨-, hd, rfl⟩ | ⟨-, hd, rfl⟩ | ⟨hw', -, -⟩⟩ := encodeRequest_cases h
  · simp [hd]
  · simp [hd]
  · simp [hw] at hw'

/-- The bytes of the CMD_VAL of a word operation (R96, R97, R129). -/
theorem encodeRequest_word {lo : BitVec 8} {hi : BitVec 16} {r : Request} {c k : Word}
    (h : encodeRequest lo hi r = some (c, k)) (hw : r.width = .word) :
    cmdMasterHigh c = r.cmd ∧ cmdMasterLow c = payloadLow r.payload ∧ cmdData c = payloadHigh r.payload := by
  obtain ⟨-, ⟨hw', -, -⟩ | ⟨hw', -, -⟩ | ⟨-, -, rfl⟩⟩ := encodeRequest_cases h
  · simp [hw] at hw'
  · simp [hw] at hw'
  · simp

/-- Settles O9: each property reads one field of the composed words. -/
theorem encodedWordProperties : Obligations.EncodedWordProperties := by
  intro lo hi r c k h
  have hmaf : cmdMaf c = true ↔ r.width = .word := by rw [encodeRequest_cmdVal h, cmdMaf_composeCmd, decide_eq_true_eq]
  have hdir : c.getLsbD 31 = true ↔ cmdDirection c = .write := by simp [cmdDirection]
  obtain ⟨rfl, -⟩ := encodeRequest_cases h
  exact ⟨hmaf, hdir.trans (by rw [encodeRequest_direction h]),
    encodeRequest_deviceAddress h, ⟨composeCsc_upper .., cscAddrLsb_composeCsc .., cscTimingLo_composeCsc ..,
      cscTimingHi_composeCsc ..⟩, encodeRequest_byte h, encodeRequest_word h⟩

/-- The widths that have words. -/
theorem encodeRequest_width {lo : BitVec 8} {hi : BitVec 16} {r : Request} {c k : Word}
    (h : encodeRequest lo hi r = some (c, k)) : r.width = .byte ∨ r.width = .word := by
  obtain ⟨-, ⟨hw, -, -⟩ | ⟨hw, -, -⟩ | ⟨hw, -, -⟩⟩ := encodeRequest_cases h <;> simp [hw]

/-- Settles O10: the properties of O9 give every operand from the words, so equal words have equal operands. -/
theorem encodeInjective : Obligations.EncodeInjective := by
  intro lo hi r r' ⟨c, k⟩ h h'
  obtain ⟨hmaf, hd, hdev, ⟨-, hlsb, -⟩, hbyte, hword⟩ := encodedWordProperties lo hi r c k h
  obtain ⟨hmaf', hd', hdev', ⟨-, hlsb', -⟩, hbyte', hword'⟩ := encodedWordProperties lo hi r' c k h'
  have hdir : r.dir = r'.dir := (encodeRequest_direction h).symm.trans (encodeRequest_direction h')
  have haddr : r.addr = r'.addr := by
    rw [← joinAddr_split r.addr, ← joinAddr_split r'.addr]
    exact congrArg₂ joinAddr (hdev.symm.trans hdev') (hlsb.symm.trans hlsb')
  rcases encodeRequest_width h with hw | hw
  case inl =>
    have hw' : r'.width = .byte := (encodeRequest_width h').resolve_right fun g =>
      absurd (hmaf.1 (hmaf'.2 g)) (by simp [hw])
    obtain ⟨-, hcmd, hdata⟩ := hbyte hw
    obtain ⟨-, hcmd', hdata'⟩ := hbyte' hw'
    refine ⟨hdir, hw.trans hw'.symm, haddr, hcmd.symm.trans hcmd', fun hwr => ?_, by simp [hw]⟩
    rw [if_pos hwr] at hdata
    rw [if_pos (hdir ▸ hwr)] at hdata'
    exact hdata.symm.trans hdata'
  case inr =>
    have hw' : r'.width = .word := hmaf'.1 (hmaf.2 hw)
    obtain ⟨hcmd, hlow, hhigh⟩ := hword hw
    obtain ⟨hcmd', hlow', hhigh'⟩ := hword' hw'
    have hp : r.payload = r'.payload := by
      rw [← payload_halves r.payload, ← payload_halves r'.payload]
      exact congrArg₂ (· ++ ·) (hhigh.symm.trans hhigh') (hlow.symm.trans hlow')
    exact ⟨hdir, hw.trans hw'.symm, haddr, hcmd.symm.trans hcmd', fun _ => hp ▸ rfl, fun _ => hp⟩

namespace Machine

/-- What the engine samples when CSC holds the word `k` (R203). -/
theorem sampleInflight_extract (c k : Word) :
    sampleInflight c (k.extractLsb' 0 29) = ⟨c, cscAddrLsb k, cscTimingLo k, cscTimingHi k⟩ := by
  simp [sampleInflight, cscAddrLsb, cscTimingLo, cscTimingHi]

/-- Settles O31: what is sampled are the words, and each field of them reads back from the encoding. -/
theorem triggerStartsRequest : Obligations.TriggerStartsRequest := by
  intro s r c k h
  refine ⟨⟨c, cscAddrLsb k, cscTimingLo k, cscTimingHi k⟩, ?_, ?_⟩
  · rw [writeCmd_inflight, writeCsc_cscConfig, sampleInflight_extract]
  obtain ⟨rfl, ⟨hw, hd, rfl⟩ | ⟨hw, hd, rfl⟩ | ⟨hw, hd, rfl⟩⟩ := encodeRequest_cases h <;>
    simp [Inflight.target, Inflight.direction, Inflight.command, Inflight.payload, hw, hd, setWidth_payloadLow]

/-! ## The descriptor (R193) -/

/-- The rows with a name are those that have words. -/
theorem capabilityOf_instr_eq_none {r : Request} :
    capabilityOf r.instr = none ↔ r.width = .other ∨ (r.width = .word ∧ r.dir = .read) := by
  obtain ⟨a, d, cmd, w, p⟩ := r
  cases w <;> cases d <;> simp [Request.instr, capabilityOf]

/-- CAPS returns every name there is. -/
theorem capabilitySet_has (name : Capability) : capabilitySet.has name = true := by
  cases name <;> rfl

/-- Settles O41: a request has words exactly when its row has a name, and every name is in the set. -/
theorem descriptorMatchesOperations : Obligations.DescriptorMatchesOperations := by
  refine ⟨fun lo hi r => ?_, fun ⟨br, bw, ww⟩ => ?_, by decide⟩
  · simp only [capabilitySet_has, and_true, ← Option.isSome_iff_exists, Option.isSome_iff_ne_none, ne_eq,
      encodeRequest_eq_none, capabilityOf_instr_eq_none]
  · revert br bw ww
    decide

end Machine

end Sys2Proof

/-! PROOFS. The moves that a step is made of, and what every move keeps. An invariant is shown for each move once and holds
along every step; the grain of a step (log 1) has no part in it. -/

namespace Sys2Proof.Machine

open Relation

/-! ## Moves -/

/-- One move of the machine: the ports and RES are written, bring-up, the start of an accepted operation, or one transition
of R160 in an operation in progress. -/
inductive Move : State → State → Prop where
  | ports (s : State) (program : List HostLine) (res : Option TransferResult) (reply : Option Reply) :
      Move s { s with program := program, res := res, reply := reply }
  | bringUp {s : State} (hi : s.initialised = false) (hp : s.prescaleWritten = false) : Move s (bringUp s)
  | start {s : State} {r : Request} {c k : Word} (hs : s.ready = true)
      (he : encodeRequest s.cfg.timingLo s.cfg.timingHi r = some (c, k)) : Move s (startTransaction r c k s)
  | poll {s : State} (hs : s.seq = .polling) : Move s (pollOnce s)
  | fetch {s : State} (hs : s.seq = .completed) :
      Move s (finish (.ok (some (cmdData (s.envAnswer cmdOff)))) (readCmd s))
  | acknowledge {s : State} (hs : s.seq = .completed) : Move s (finish (.ok none) s)
  | timeout {s : State} (hs : s.seq = .timedOut) (w : Word) : Move s (finish (timeoutResult w) (settleInflight s))

/-- The classification is one move, or none where there is nothing to classify. -/
theorem classify_moves (d : Direction) (s : State) : ReflTransGen Move s (classify d s) := by
  unfold classify
  cases hs : s.seq with
  | idle | polling => exact .refl
  | timedOut => exact .single (.timeout hs _)
  | completed =>
    cases d with
    | read => exact .single (.fetch hs)
    | write => exact .single (.acknowledge hs)

/-- The poll loop is a sequence of polls. -/
theorem pollLoop_moves (n : Nat) {s : State} (hs : s.seq = .polling) : ReflTransGen Move s (pollLoop n s) := by
  induction n generalizing s with
  | zero => exact .single (.poll hs)
  | succ n ih =>
    by_cases again : (pollOnce s).seq = .polling
    · rw [pollLoop, if_pos again]
      exact .head (.poll hs) (ih again)
    · rw [pollLoop, if_neg again]
      exact .single (.poll hs)

/-- The next transition of an operation in progress is a move. -/
theorem advance_moves (d : Direction) (s : State) : ReflTransGen Move s (advance d s) := by
  cases hs : s.seq with
  | idle => simp only [advance, hs]; exact .refl
  | polling => simp only [advance, hs]; exact .single (.poll hs)
  | completed | timedOut => simp only [advance, hs]; exact classify_moves d s

/-- EXECUTE is a sequence of moves: a rejected request writes RES and the port, an accepted one is started, polled and
classified. -/
theorem execute_moves {s t : State} {r : Request} (h : execute r s = .next t) : ReflTransGen Move s t := by
  obtain ⟨hs, ⟨-, rfl⟩ | ⟨c, k, he, rfl⟩⟩ := execute_next h
  · exact .single (.ports s s.program _ _)
  · exact .head (.start hs he) ((pollLoop_moves _ rfl).trans (classify_moves ..))

/-- When INIT answers a next state, and which. -/
theorem execInit_next {s t : State} (h : exec .init s = .next t) :
    s.initialised = false ∧ s.prescaleWritten = false ∧ t = bringUp s := by
  rw [execInit_eq] at h
  cases hi : s.initialised <;> cases hp : s.prescaleWritten <;> simp [hi, hp] at h
  exact ⟨rfl, rfl, h.symm⟩

/-- Every operation is a sequence of moves. -/
theorem exec_moves {s t : State} {i : Instr} (h : exec i s = .next t) : ReflTransGen Move s t := by
  cases hr : i.request with
  | some r => exact execute_moves (exec_request hr s ▸ h)
  | none =>
    cases i with
    | byteRead | byteWrite | wordWrite | wordRead | other => simp [Instr.request] at hr
    | caps =>
      cases h
      exact .single (.ports s s.program s.res _)
    | init =>
      obtain ⟨hi, hp, rfl⟩ := execInit_next h
      exact .single (.bringUp hi hp)

/-- Every step is a sequence of moves. -/
theorem step_moves {s t : State} (h : step s = .next t) : ReflTransGen Move s t := by
  rcases step_next h with ⟨-, -, rfl⟩ | ⟨-, line, rest, i, -, -, hx⟩ | ⟨-, r, -, rfl⟩
  · exact .refl
  · exact .head (.ports s rest s.res s.reply) (exec_moves hx)
  · exact advance_moves r.dir s

/-- What every move keeps, every step keeps. -/
theorem step_keeps {P : State → Prop} (hP : ∀ {s t}, Move s t → P s → P t) {s t : State} (h : step s = .next t)
    (hs : P s) : P t := by
  have hm := step_moves h
  clear h
  induction hm with
  | refl => exact hs
  | tail _ hm ih => exact hP hm ih

/-! ## What no move changes -/

/-- The two accesses that start an operation (R151). -/
theorem startTransaction_trace (r : Request) (c k : Word) (s : State) :
    (startTransaction r c k s).trace = s.trace ++ startEvents c k := by
  simp [startTransaction, startEvents]

/-- Configuration and BFT stay, bring-up and PRESCALE after it stay, and the trace only grows. -/
structure Persists (s t : State) : Prop where
  cfg       : t.cfg = s.cfg
  bft       : t.bft = s.bft
  broughtUp : s.initialised = true → t.initialised = true ∧ t.prescale = s.prescale
  trace     : ∃ events, t.trace = s.trace ++ events

theorem Persists.trans {s t u : State} (h : Persists s t) (h' : Persists t u) : Persists s u where
  cfg       := h'.cfg.trans h.cfg
  bft       := h'.bft.trans h.bft
  broughtUp := fun hi =>
    have ⟨ht, hp⟩ := h.broughtUp hi
    have ⟨hu, hp'⟩ := h'.broughtUp ht
    ⟨hu, hp'.trans hp⟩
  trace     := by
    obtain ⟨l, hl⟩ := h.trace
    obtain ⟨m, hm⟩ := h'.trace
    exact ⟨l ++ m, by rw [hm, hl, List.append_assoc]⟩

theorem Move.persists {s t : State} (h : Move s t) : Persists s t := by
  cases h with
  | ports => exact ⟨rfl, rfl, fun hi => ⟨hi, rfl⟩, [], by simp⟩
  | bringUp hi => exact ⟨rfl, rfl, by simp [hi], _, rfl⟩
  | start => exact ⟨rfl, rfl, fun hi => ⟨hi, rfl⟩, startEvents _ _, startTransaction_trace ..⟩
  | poll =>
    have h := pollOnce_spec s
    exact ⟨h.cfg, h.bft, fun hi => ⟨h.initialised.trans hi, h.prescale⟩, _, h.trace⟩
  | fetch => exact ⟨rfl, rfl, fun hi => ⟨hi, rfl⟩, _, rfl⟩
  | acknowledge | timeout => exact ⟨rfl, rfl, fun hi => ⟨hi, rfl⟩, [], by simp⟩

/-! ## From IDLE to IDLE -/

/-- Where SEQ stands after one poll: the operation is resolved, out of budget, or has polls left (R160, rows 2 to 4). -/
theorem pollOnce_seq {s : State} (hs : s.seq = .polling) :
    (pollOnce s).seq = .completed ∨ (pollOnce s).seq = .timedOut ∨
      ((pollOnce s).seq = .polling ∧ s.pollCount + 1 < s.cfg.pollBudget) := by
  have h := pollOnce_spec s
  cases hr : resolved (s.envAnswer cscOff) with
  | true => exact .inl (h.passed hr).1
  | false =>
    have hq := (h.failed hr).2
    split at hq
    · exact .inr (.inl hq)
    · exact .inr (.inr ⟨hq.trans hs, by omega⟩)

/-- The poll loop ends in COMPLETED or TIMEDOUT where its iterations cover the budget, be it 0. -/
theorem pollLoop_ended (n : Nat) {s : State} (hs : s.seq = .polling) (hb : s.cfg.pollBudget ≤ s.pollCount + (n + 1)) :
    (pollLoop n s).seq = .completed ∨ (pollLoop n s).seq = .timedOut := by
  induction n generalizing s with
  | zero => exact (pollOnce_seq hs).imp_right fun h => h.resolve_right fun h => by omega
  | succ n ih =>
    rcases pollOnce_seq hs with h | h | ⟨again, -⟩
    · simp [pollLoop, h]
    · simp [pollLoop, h]
    · rw [pollLoop, if_pos again]
      exact ih again (by rw [(pollOnce_spec s).cfg, (pollOnce_spec s).pollCount]; omega)

/-- The classification of an ended poll loop ends the operation. -/
theorem classify_seq {s : State} (d : Direction) (h : s.seq = .completed ∨ s.seq = .timedOut) :
    (classify d s).seq = .idle := by
  rcases h with h | h <;> cases d <;> simp [classify, h]

/-- An operation that runs from IDLE ends in IDLE. -/
theorem exec_idle {s t : State} {i : Instr} (hs : s.seq = .idle) (h : exec i s = .next t) : t.seq = .idle := by
  cases hr : i.request with
  | some r =>
    rw [exec_request hr] at h
    obtain ⟨-, ⟨-, rfl⟩ | ⟨c, k, -, rfl⟩⟩ := execute_next h
    · exact hs
    · refine classify_seq _ (pollLoop_ended _ rfl ?_)
      simp only [startTransaction, enterPolling_cfg, writeCmd_cfg, writeCsc_cfg, latch_cfg, enterPolling_pollCount]
      omega
  | none =>
    cases i with
    | byteRead | byteWrite | wordWrite | wordRead | other => simp [Instr.request] at hr
    | caps => cases h; exact hs
    | init => obtain ⟨-, -, rfl⟩ := execInit_next h; exact hs

/-- Settles O34: no move changes what persists, and an operation runs whole. -/
theorem persistentState : Obligations.PersistentState := by
  intro s t h
  have hp : Persists s t :=
    step_keeps (P := Persists s) (fun hm hs => hs.trans hm.persists) h ⟨rfl, rfl, fun hi => ⟨hi, rfl⟩, [], by simp⟩
  refine ⟨hp.cfg, hp.bft, hp.broughtUp, hp.trace, fun hs => ?_⟩
  rcases step_next h with ⟨-, -, rfl⟩ | ⟨-, line, rest, i, -, -, hx⟩ | ⟨hb, -⟩
  · exact hs
  · exact exec_idle (s := { s with program := rest }) hs hx
  · exact absurd hs hb

/-! ## The discipline of the trace -/

/-- Where the events so far leave no clock-control write without its command, the later ones are judged by themselves. -/
theorem clockFirst_append {armed : Bool} {l : List Event} (h : clockFirst armed l = true) (m : List Event) :
    clockFirst armed (l ++ m) = clockFirst false m := by
  induction l generalizing armed with
  | nil => simp_all [clockFirst]
  | cons e l ih =>
    simp only [clockFirst, List.cons_append] at h ⊢
    split at h
    next => simp only [Bool.and_eq_true] at h; simp [*, ih h.2]
    next =>
      split at h <;> simp only [Bool.and_eq_true] at h <;> simp [*, ih h.2]

/-- A trace with the discipline keeps it when the events added have it. -/
theorem TraceInv.extend {s t : State} (h : TraceInv s) {events : List Event} (ht : t.trace = s.trace ++ events)
    (hc : t.cfg = s.cfg) (ha : ∀ e ∈ events, allowedEvent s.cfg e = true) (ho : clockFirst false events = true)
    (hp : (if s.initialised then 1 else 0) + (events.filter (isWriteAt prescaleOff)).length =
      if t.initialised then 1 else 0) : TraceInv t where
  allowed := by
    rw [ht, hc]
    exact fun e he => (List.mem_append.1 he).elim (h.allowed e) (ha e)
  ordered := by rw [ht, clockFirst_append h.ordered, ho]
  prescale := by rw [ht, List.filter_append, List.length_append, h.prescale, hp]

/-- Events without a write of PRESCALE keep the discipline where INITIALISED stays. -/
theorem TraceInv.extend_same {s t : State} (h : TraceInv s) {events : List Event} (ht : t.trace = s.trace ++ events)
    (hc : t.cfg = s.cfg) (hi : t.initialised = s.initialised) (ha : ∀ e ∈ events, allowedEvent s.cfg e = true)
    (ho : clockFirst false events = true) (hp : events.filter (isWriteAt prescaleOff) = []) : TraceInv t :=
  h.extend ht hc ha ho (by rw [hp, hi]; rfl)

/-- The polls of an operation are allowed (R64). -/
theorem pollEvents_allowed (cfg : Config) (l : List Word) : ∀ e ∈ pollEvents cfg l, allowedEvent cfg e = true := by
  induction l with
  | nil => simp [pollEvents]
  | cons a l ih => cases hr : resolved a <;> simpa [pollEvents, hr, allowedEvent] using ih

/-- The polls of an operation write neither CSC nor CMD. -/
theorem pollEvents_ordered (cfg : Config) (l : List Word) : clockFirst false (pollEvents cfg l) = true := by
  induction l with
  | nil => rfl
  | cons a l ih => cases hr : resolved a <;> simpa [pollEvents, hr, clockFirst, isWriteAt] using ih

/-- The polls of an operation write nothing. -/
theorem pollEvents_no_write (cfg : Config) (off : Nat) (l : List Word) :
    (pollEvents cfg l).filter (isWriteAt off) = [] := by
  induction l with
  | nil => rfl
  | cons a l ih => cases hr : resolved a <;> simpa [pollEvents, hr, isWriteAt] using ih

theorem Move.keeps_traceInv {s t : State} (h : Move s t) (hs : TraceInv s) : TraceInv t := by
  cases h with
  | ports | acknowledge | timeout => exact hs.extend_same (events := []) (by simp) rfl rfl (by simp) rfl rfl
  | bringUp hi =>
    exact hs.extend (bringUp_trace s) rfl (by simp [allowedEvent]) (by simp [clockFirst, isWriteAt])
      (by simp [isWriteAt, hi])
  | start _ he =>
    obtain ⟨hc, hk⟩ := encodeRequest_unreserved he
    exact hs.extend_same (startTransaction_trace ..) rfl rfl (by simp [startEvents, allowedEvent, hc, hk]) rfl rfl
  | poll =>
    have h := pollOnce_spec s
    exact hs.extend_same h.trace h.cfg h.initialised (pollEvents_allowed _ _) (pollEvents_ordered ..)
      (pollEvents_no_write ..)
  | fetch => exact hs.extend_same (readCmd_trace s) rfl rfl (by simp [allowedEvent]) rfl rfl

/-- Settles O38: every move adds events that have the discipline. -/
theorem stepKeepsTraceInv : Obligations.StepKeepsTraceInv :=
  fun _ _ hs h => step_keeps Move.keeps_traceInv h hs

/-- Settles O39: there is no event yet. -/
theorem resetHasTraceInv : Obligations.ResetHasTraceInv where
  allowed  := fun _ he => nomatch he
  ordered  := rfl
  prescale := rfl

/-! ## The invariant of the sequencer -/

/-- The end of an operation has the invariant: the records are discarded, and the accesses before it leave alone what the
invariant says of IDLE. -/
theorem SequencerInv.finish {s u : State} (h : SequencerInv s) (hc : u.cfg = s.cfg) (hn : u.pollCount = s.pollCount)
    (hi : u.initialised = s.initialised) (hp : u.prescale = s.prescale)
    (hf : ∀ f, u.inflight = some f → s.inflight = some f) (r : TransferResult) : SequencerInv (finish r u) where
  cfg       := by simpa [hc] using h.cfg
  count     := by simpa [hc, hn] using h.count
  idle      := fun _ => ⟨rfl, rfl, rfl, rfl⟩
  busy      := fun hq => absurd rfl hq
  polling   := nofun
  completed := nofun
  timedOut  := nofun
  prescale  := by simpa [hc, hi, hp] using h.prescale
  inflight  := by
    intro f g
    rw [finish_cfg, hc]
    exact h.inflight f (hf f g)

/-- The start of an accepted operation has the invariant: its words are the encoding of its request, and the trigger is the
latest transaction that the trace shows. -/
theorem SequencerInv.start {s : State} (h : SequencerInv s) (hs : s.ready = true) {r : Request} {c k : Word}
    (he : encodeRequest s.cfg.timingLo s.cfg.timingHi r = some (c, k)) : SequencerInv (startTransaction r c k s) where
  cfg       := h.cfg
  count     := Nat.zero_le _
  idle      := nofun
  busy      := fun _ => ⟨(ready_eq.1 hs).1, r, c, k, rfl, rfl, rfl, rfl, rfl, he, startTransaction_observed r c k s⟩
  polling   := fun _ => by
    have hb : 1 ≤ s.cfg.pollBudget := by have := h.cfg; simp [Config.wf] at this; omega
    exact hb
  completed := nofun
  timedOut  := nofun
  prescale  := h.prescale
  inflight  := by
    intro f hf
    rw [startTransaction_inflight, Option.some.injEq] at hf
    subst hf
    obtain ⟨rfl, -⟩ := encodeRequest_cases he
    exact ⟨(encodeRequest_unreserved he).1, cscTimingLo_composeCsc .., cscTimingHi_composeCsc ..⟩

/-- What the trace shows of the transaction after one more poll. -/
theorem pollOnce_observed {s : State} {o : Observed} (h : s.observed = some o) :
    (pollOnce s).observed = some { word := o.word, resolved := resolved (s.envAnswer cscOff) || o.resolved } := by
  rw [observed_append (pollOnce_spec s).trace, h, observe_pollEvents]
  simp

/-- SEQ is COMPLETED after a poll in POLLING exactly when the poll passed the exit test (R158). -/
theorem pollOnce_completed {s : State} (hs : s.seq = .polling) :
    (pollOnce s).seq = .completed ↔ resolved (s.envAnswer cscOff) = true := by
  have h := pollOnce_spec s
  cases hr : resolved (s.envAnswer cscOff) with
  | true => simp [(h.passed hr).1]
  | false =>
    rw [(h.failed hr).2, hs]
    split <;> simp

/-- A poll in POLLING keeps the invariant. -/
theorem SequencerInv.poll {s : State} (h : SequencerInv s) (hs : s.seq = .polling) : SequencerInv (pollOnce s) := by
  have hp := pollOnce_spec s
  have hlt := h.polling hs
  have hq := pollOnce_seq hs
  have hnot : (pollOnce s).seq ≠ .idle := by rcases hq with hq | hq | ⟨hq, -⟩ <;> simp [hq]
  exact {
    cfg       := hp.cfg ▸ h.cfg
    count     := by rw [hp.pollCount, hp.cfg]; omega
    idle      := fun hi => absurd hi hnot
    busy      := fun _ => by
      obtain ⟨hi, r, c, k, hop, hcv, hkv, hcmd, hcsc, he, hobs⟩ := h.busy (by simp [hs])
      refine ⟨hp.initialised.trans hi, r, c, k, hp.op.trans hop, hp.cmdVal.trans hcv, hp.cscVal.trans hkv,
        hp.cmd.trans hcmd, hp.cscConfig.trans hcsc, hp.cfg ▸ he, ?_⟩
      simp [pollOnce_observed hobs, hs, pollOnce_completed hs]
    polling   := fun hi => by
      rw [hp.pollCount, hp.cfg]
      simpa [hi] using hq
    completed := fun hi => by
      have hr := (pollOnce_completed hs).1 hi
      exact ⟨by rw [hp.pollCount]; omega, (hp.passed hr).2, _, hp.lastStatus, hr⟩
    timedOut  := fun hi => by
      have hr : resolved (s.envAnswer cscOff) = false := by
        simpa [hi] using mt (pollOnce_completed hs).2
      have hb := (hp.failed hr).2
      rw [hi, hs] at hb
      split at hb
      · exact ⟨by rw [hp.pollCount, hp.cfg]; omega, _, hp.lastStatus, hr⟩
      · contradiction
    prescale  := by rw [hp.initialised, hp.prescale, hp.cfg]; exact h.prescale
    inflight  := by
      intro f hf
      rw [hp.cfg]
      cases hr : resolved (s.envAnswer cscOff) with
      | true => rw [(hp.passed hr).2] at hf; contradiction
      | false => exact h.inflight f ((hp.failed hr).1 ▸ hf) }

theorem Move.keeps_sequencerInv {s t : State} (h : Move s t) (hs : SequencerInv s) : SequencerInv t := by
  cases h with
  | ports => exact ⟨hs.cfg, hs.count, hs.idle, hs.busy, hs.polling, hs.completed, hs.timedOut, hs.prescale, hs.inflight⟩
  | bringUp hi =>
    have hq : s.seq = .idle := by
      by_contra hq
      simp [(hs.busy hq).1] at hi
    exact ⟨hs.cfg, hs.count, hs.idle, fun hb => absurd hq hb, hs.polling, hs.completed, hs.timedOut, fun _ => rfl,
      hs.inflight⟩
  | start hr he => exact hs.start hr he
  | poll hq => exact hs.poll hq
  | fetch => exact hs.finish (u := readCmd s) rfl rfl rfl rfl (fun _ hf => hf) _
  | acknowledge => exact hs.finish rfl rfl rfl rfl (fun _ hf => hf) _
  | timeout =>
    refine hs.finish (u := settleInflight s) rfl rfl rfl rfl (fun f hf => ?_) _
    rw [settleInflight_inflight] at hf
    split at hf
    · contradiction
    · exact hf

/-- Settles O35: every move keeps the invariant. -/
theorem stepKeepsSequencerInv : Obligations.StepKeepsSequencerInv :=
  fun _ _ hs h => step_keeps Move.keeps_sequencerInv h hs

/-- Settles O36: after bring-up PRESCALE is PRESCALE_400K, the first value that is asked for. -/
theorem busSpeedAfterBringUp : Obligations.BusSpeedAfterBringUp :=
  fun _ hs hi => if_pos (hs.prescale hi)

/-- Settles O37: in IDLE with empty records, before bring-up, the invariant asks only for the configuration. -/
theorem resetHasSequencerInv : Obligations.ResetHasSequencerInv where
  cfg       := by simp [State.reset, Config.device, Config.wf]
  count     := Nat.zero_le _
  idle      := fun _ => ⟨rfl, rfl, rfl, rfl⟩
  busy      := fun hq => absurd rfl hq
  polling   := nofun
  completed := nofun
  timedOut  := nofun
  prescale  := nofun
  inflight  := nofun

end Sys2Proof.Machine

/-! PROOFS. Front-end (43_frontend.md): the HOST's lines, INIT, CAPS, and what is refused outside their order. -/

namespace Sys2Proof.Machine

/-! ## Lines -/

/-- Settles O12: the three things a step in IDLE can find in the HOST's list. -/
theorem stepRunsNextLine : Obligations.StepRunsNextLine :=
  ⟨fun _ _ _ _ => step_line_ok, fun _ _ _ _ => step_line_error, fun s hs hp => by simp [step, hs, hp]⟩

/-- Settles O13: the line of an operation decodes to it, and a typed request to its row. -/
theorem everyOperationHasLine : Obligations.EveryOperationHasLine :=
  ⟨fun _ i hs => step_line_ok hs rfl (line_decode i), fun _ r hs => ⟨step_line_ok hs rfl rfl, request_instr r⟩⟩

/-- The pair of words behind a word of the opcode table that decodes. -/
theorem decodeTableWord_eq_some {nbits w : Nat} {i : Instr} (h : decodeTableWord nbits w = some i) :
    decodeWords (tableCmdWord nbits w) (tableCscWord nbits w) = .ok i := by
  unfold decodeTableWord at h
  rw [← List.append_nil (bytesOfPair _)] at h
  cases hd : decodeWords (tableCmdWord nbits w) (tableCscWord nbits w) with
  | ok j =>
    rw [decode_bytesOfPair_ok hd] at h
    simpa using h
  | error e =>
    rw [decode_bytesOfPair_error hd] at h
    simp at h

/-- Settles O14: the placed line decodes to the operation, in a state put to IDLE. -/
theorem fetchWordRuns : Obligations.FetchWordRuns :=
  fun _ _ _ _ h => step_line_ok rfl rfl (decodeTableWord_eq_some h)

/-! ## INIT and CAPS -/

/-- INIT completes where PRESCALE has not been written (R190). -/
theorem execInit_completes {s : State} (hi : s.initialised = false) (hp : s.trace.any (isWriteAt prescaleOff) = false) :
    exec .init s = .next (bringUp s) := by
  simp [execInit_eq, State.prescaleWritten, hi, hp]

/-- Before bring-up the discipline of the trace has no write of PRESCALE. -/
theorem TraceInv.prescale_unwritten {s : State} (h : TraceInv s) (hi : s.initialised = false) :
    s.trace.any (isWriteAt prescaleOff) = false := by
  have hz := h.prescale
  rw [hi, if_neg Bool.false_ne_true, List.length_eq_zero_iff, List.filter_eq_nil_iff] at hz
  simpa using hz

/-- Settles O16: with PRESCALE unwritten INIT is `bringUp`, whose fields are those asked for. -/
theorem initCompletes : Obligations.InitCompletes :=
  fun _ hi h => execInit_completes hi (h.elim id fun hs => hs.prescale_unwritten hi)

/-- Settles O17: CAPS writes the port alone. -/
theorem capsCompletes : Obligations.CapsCompletes := fun _ => rfl

/-- Settles O18: the guards of EXECUTE and INIT, in their order. -/
theorem refusedOutsideOrder : Obligations.RefusedOutsideOrder := by
  refine ⟨?before, ?second, ?rewrite, ?busy⟩
  case before => exact fun s r hi => by simp [execute, hi]
  case second => exact fun s hi => by simp [execInit_eq, hi]
  case rewrite => exact fun s hi hp => by simp [execInit_eq, State.prescaleWritten, hi, hp]
  case busy => exact fun s r hi hq => by simp [execute, hi, hq]

/-- Settles O40: the fields of the state after reset. -/
theorem resetState : Obligations.ResetState :=
  ⟨rfl, rfl, rfl, rfl, rfl, rfl, rfl, rfl, rfl, rfl, rfl, rfl⟩

end Sys2Proof.Machine

/-! PROOFS. One accepted operation (41_poller.md, 42_classifier.md, 43_frontend.md): its single transitions, and what it has
done when it ends. -/

namespace Sys2Proof.Machine

/-! ## Single transitions -/

/-- Settles O26: the step is one poll, whose two outcomes are told apart by the exit test. -/
theorem pollTransition : Obligations.PollTransition := by
  intro s r hs ho hb
  have h := pollOnce_spec s
  refine ⟨pollOnce s, step_polling hs ho, h.pollCount, h.lastStatus, h.flags, ?passed, ?failed, h.cfg, h.op, h.cmdVal,
    h.cscVal, h.res, h.initialised, h.cmd, h.prescale, h.cscConfig, h.bft, h.program, h.reply⟩
  case passed =>
    intro ⟨hnak, hrip⟩
    have hr : resolved (s.envAnswer cscOff) = true := resolved_eq_true.2 ⟨hrip, hnak⟩
    exact ⟨(h.passed hr).1, by rw [h.trace, pollEvents, if_pos hr]; rfl, (h.passed hr).2⟩
  case failed =>
    intro hf
    have hr : resolved (s.envAnswer cscOff) = false := resolved_eq_false.2 hf.symm
    obtain ⟨hi, hq⟩ := h.failed hr
    refine ⟨fun hlt => ?_, fun heq => ?_, by rw [h.trace, pollEvents, if_neg (by simp [hr])]; rfl, hi⟩
    · rw [hq, if_neg (by omega), hs]
    · rw [hq, if_pos (by omega)]

/-- A step from an ended poll loop is the classification (R160, rows 5 and 6). -/
theorem step_ended {s : State} {r : Request} (hs : s.seq = .completed ∨ s.seq = .timedOut) (ho : s.op = some r) :
    step s = .next (classify r.dir s) := by
  rcases hs with hs | hs <;> rw [step_busy (by simp [hs]) ho, advance, hs]

/-- Settles O28: a read is finished after its read of CMD, a write at once. -/
theorem completionClassified : Obligations.CompletionClassified := by
  intro s r hs ho
  refine ⟨_, step_ended (.inl hs) ho, ?_⟩
  cases hd : r.dir with
  | read =>
    rw [classify_read hs]
    simp [cmdData]
  | write =>
    rw [classify_write hs]
    simp

/-- Settles O29: the steps of the poll loop from the started state, and one more that classifies. -/
theorem execIsStartThenSteps : Obligations.ExecIsStartThenSteps := by
  intro s t r c k hs hb he h
  rw [exec_instr, execute_accepted hs he, Host.Outcome.next.injEq] at h
  subst h
  obtain ⟨n, hn, hrun⟩ := run_pollLoop (r := r) (s.cfg.pollBudget - 1) (s := startTransaction r c k s) rfl rfl
  obtain ⟨failed, last, hloop⟩ := poll_spec r c k hb
  refine ⟨n + 1 + 1, by omega, by omega, ?_⟩
  rw [run_add hrun]
  exact run_succ (step_ended hloop.ended hloop.op) 0

/-! ## What one operation has done -/

section

variable {s u : State} {r : Request} {c k : Word} {failed : List Word} {last : Word}
  (h : PollRun (startTransaction r c k s) failed last u)
include h

/-- The trace after the poll loop of an operation. -/
theorem PollRun.trace_start : u.trace = s.trace ++ startEvents c k ++ pollEvents s.cfg (failed ++ [last]) := by
  rw [h.trace, startTransaction_trace]
  rfl

/-- The polls of an operation, from none at its start. -/
theorem PollRun.pollCount_start : u.pollCount = failed.length + 1 := by
  rw [h.pollCount]
  exact Nat.zero_add _

/-- A poll loop whose last poll passed is classified as a read or a write that resolved (R172, R173). -/
theorem PollRun.resolvedAfter (hl : resolved last = true) :
    ResolvedAfter s r.dir c k failed last (classify r.dir u) := by
  obtain ⟨hq, hf⟩ := h.passed hl
  have hb : failed.length < s.cfg.pollBudget := by simpa [startTransaction] using h.budget
  cases hd : r.dir with
  | read =>
    rw [classify_read hq]
    exact ⟨h.unresolved, hl, hb, h.pollCount_start, hf, h.cscConfig, h.flags, nofun, fun _ =>
      ⟨u.envAnswer cmdOff, rfl, by simp [h.cmd, startTransaction], by simp [h.trace_start]⟩⟩
  | write =>
    rw [classify_write hq]
    exact ⟨h.unresolved, hl, hb, h.pollCount_start, hf, h.cscConfig, h.flags, fun _ => ⟨rfl, h.cmd, h.trace_start⟩, nofun⟩

/-- A poll loop whose last poll failed is classified as a timeout (R174 to R179). -/
theorem PollRun.spentBudget (hl : resolved last = false) : SpentBudget s c k failed last (classify r.dir u) := by
  obtain ⟨hb, hq, hf⟩ := h.spent hl
  have hb : failed.length + 1 = s.cfg.pollBudget := by simpa [startTransaction] using hb
  rw [classify_timedOut r.dir hq h.lastStatus]
  refine ⟨h.unresolved, hl, hb, h.pollCount_start.trans hb, rfl, ?_, h.cmd, h.cscConfig, h.flags, h.trace_start⟩
  rw [finish_inflight, settleInflight_inflight]
  split
  · exact .inl rfl
  · exact .inr (hf.trans (startTransaction_inflight r c k s))

/-- What the classification leaves alone. -/
theorem PollRun.leftAlone : LeftAlone s (classify r.dir u) := by
  rcases h.ended with hq | hq
  · cases hd : r.dir with
    | read =>
      rw [classify_read hq]
      exact ⟨h.cfg, h.initialised, h.prescale, h.bft, h.program, rfl, rfl, rfl, rfl, rfl, rfl⟩
    | write =>
      rw [classify_write hq]
      exact ⟨h.cfg, h.initialised, h.prescale, h.bft, h.program, rfl, rfl, rfl, rfl, rfl, rfl⟩
  · rw [classify_timedOut r.dir hq h.lastStatus]
    exact ⟨h.cfg, h.initialised, h.prescale, h.bft, h.program, rfl, rfl, rfl, rfl, rfl, rfl⟩

end

/-- An accepted request that runs is transferred: it resolves at some poll or spends its budget. -/
theorem execute_transferred {s t : State} {r : Request} {c k : Word} (hb : 1 ≤ s.cfg.pollBudget)
    (he : encodeRequest s.cfg.timingLo s.cfg.timingHi r = some (c, k)) (h : execute r s = .next t) :
    Transferred s r.dir c k t := by
  rw [execute_accepted (execute_next h).1 he, Host.Outcome.next.injEq] at h
  subst h
  obtain ⟨failed, last, hrun⟩ := poll_spec r c k hb
  refine ⟨hrun.leftAlone, failed, last, ?_⟩
  cases hl : resolved last with
  | true => exact .inl (hrun.resolvedAfter hl)
  | false => exact .inr (hrun.spentBudget hl)

/-- CSC_VAL laid out bit by bit (R92, R126). -/
theorem composeCsc_eq_append (lo : BitVec 8) (hi : BitVec 16) (a : TargetAddr) :
    composeCsc lo hi (addrLsb a) = 0#7 ++ hi ++ lo ++ a.extractLsb' 0 1 := by
  apply BitVec.eq_of_getLsbD_eq
  intro i hi
  simp only [getLsbD_composeCsc, BitVec.getLsbD_append, addrLsb, BitVec.getLsbD_extractLsb', BitVec.getLsbD_zero]
  grind

/-- CMD_VAL laid out bit by bit (R91). -/
theorem composeCmd_eq_append (d : Direction) (dev : BitVec 6) (maf : Bool) (high low da : Byte) :
    composeCmd d dev maf (high ++ low) da =
      (if d = .write then 1#1 else 0#1) ++ dev ++ BitVec.ofBool maf ++ high ++ low ++ da := by
  apply BitVec.eq_of_getLsbD_eq
  intro i hi
  simp only [getLsbD_composeCmd, BitVec.getLsbD_append]
  grind

/-- An accepted request that the HOST may present runs, and is transferred. -/
theorem exec_transferred {s : State} {i : Instr} {r : Request} {c k : Word} (hs : s.ready = true)
    (hb : 1 ≤ s.cfg.pollBudget) (hi : i.request = some r)
    (he : encodeRequest s.cfg.timingLo s.cfg.timingHi r = some (c, k)) :
    ∃ t, exec i s = .next t ∧ Transferred s r.dir c k t :=
  ⟨_, (exec_request hi s).trans (execute_accepted hs he), execute_transferred hb he (execute_accepted hs he)⟩

/-- Settles O19: the words of each operation, bit by bit, and the outcome of its poll loop. -/
theorem transfersComplete : Obligations.TransfersComplete := by
  intro s a cmd p hs hb
  refine ⟨exec_transferred (r := ⟨a, .read, cmd, .byte, p⟩) hs hb rfl ?byteRead,
    exec_transferred (r := ⟨a, .write, cmd, .byte, p⟩) hs hb rfl ?byteWrite,
    exec_transferred (r := ⟨a, .write, cmd, .word, p⟩) hs hb rfl ?wordWrite⟩
  case byteRead | byteWrite =>
    simp only [encodeRequest, masterPlain, setWidth_byte, composeCmd_eq_append, composeCsc_eq_append]
    rfl
  case wordWrite =>
    simp only [encodeRequest, masterPacked_eq, composeCmd_eq_append, composeCsc_eq_append]
    rfl

/-! ## The answers that ENV has listed -/

section

variable {s u : State} {r : Request} {c k : Word} {failed : List Word} {last : Word}
  (h : PollRun (startTransaction r c k s) failed last u)
include h

/-- The polls of an operation are the listed answers: some that fail the exit test, and one that passes it or is the last
that the budget allows. -/
theorem PollRun.polls_listed {failed' rest : List Word} {last' : Word} (hs : s.envScript = failed' ++ last' :: rest)
    (hf : ∀ a ∈ failed', resolved a = false) (hb : failed'.length + 1 ≤ s.cfg.pollBudget)
    (hl : resolved last' = true ∨ failed'.length + 1 = s.cfg.pollBudget) : failed = failed' ∧ last = last' := by
  have hbudget : failed.length + 1 ≤ s.cfg.pollBudget := by simpa [startTransaction] using h.budget
  have hscript : ∀ i ≤ failed.length, i ≤ failed'.length → (failed ++ [last])[i]? = (failed' ++ [last'])[i]? := by
    intro i hi hi'
    have heq : s.envScript = (failed' ++ [last']) ++ rest := by simp [hs]
    rw [h.script i hi (by simp [startTransaction, hs]; omega)]
    exact (congrArg (·[i]?) heq).trans (List.getElem?_append_left (by simp; omega))
  have hlen : failed.length = failed'.length := by
    rcases Nat.lt_trichotomy failed.length failed'.length with hlt | heq | hgt
    · have hlast := hscript failed.length le_rfl hlt.le
      rw [List.getElem?_concat_length, List.getElem?_append_left hlt] at hlast
      have hspent := (h.spent (hf last (List.mem_of_getElem? hlast.symm))).1
      have hspent : failed.length + 1 = s.cfg.pollBudget := by simpa [startTransaction] using hspent
      omega
    · exact heq
    · have hlast := hscript failed'.length hgt.le le_rfl
      rw [List.getElem?_concat_length, List.getElem?_append_left hgt] at hlast
      have hun := h.unresolved last' (List.mem_of_getElem? hlast)
      rcases hl with hl | hl
      · simp [hun] at hl
      · omega
  have hpolls : failed ++ [last] = failed' ++ [last'] := by
    apply List.ext_getElem?
    intro i
    by_cases hi : i ≤ failed.length
    · exact hscript i hi (hlen ▸ hi)
    · rw [List.getElem?_eq_none (by simp; omega), List.getElem?_eq_none (by simp; omega)]
  exact (List.append_inj hpolls hlen).imp_right fun h => by simpa using h

/-- After the polls, ENV's list goes on behind them. -/
theorem PollRun.envScript_listed {rest : List Word} (hs : s.envScript = failed ++ last :: rest) : u.envScript = rest := by
  have heq : s.envScript = (failed ++ [last]) ++ rest := by simp [hs]
  rw [h.envScript]
  exact (congrArg (List.drop _) heq).trans (List.drop_left' (by simp))

end

/-- Failed polls, each with its sleep. -/
theorem pollEvents_failed {cfg : Config} {l : List Word} (h : ∀ a ∈ l, resolved a = false) :
    pollEvents cfg l = l.flatMap fun a => [.read cscOff a, .sleep cfg.sleepMinUs cfg.sleepMaxUs] := by
  induction l with
  | nil => rfl
  | cons a l ih =>
    have ⟨ha, hl⟩ := List.forall_mem_cons.1 h
    simp [pollEvents, ha, ih hl]

theorem pollEvents_resolved {cfg : Config} {a : Word} (h : resolved a = true) : pollEvents cfg [a] = [.read cscOff a] := by
  simp [pollEvents, h]

/-- The exit test fails on a word with bit 31 or bit 30 set. -/
theorem resolved_mask_ne {w : Word} : resolved w = false ↔ w &&& 0xC0000000#32 ≠ 0#32 := by
  rw [← Bool.not_eq_true, ne_eq, resolved_mask]

/-- An accepted request whose coming answers are some that fail the exit test and one that passes it, within the budget,
polls exactly those and ends its poll loop in COMPLETED (R158). -/
theorem poll_resolves (r : Request) (c k : Word) {s : State} {failed rest : List Word} {last : Word}
    (hb : failed.length < s.cfg.pollBudget) (hs : s.envScript = failed ++ last :: rest)
    (hf : ∀ x ∈ failed, x &&& 0xC0000000#32 ≠ 0#32) (hl : last &&& 0xC0000000#32 = 0#32) :
    PollRun (startTransaction r c k s) failed last (poll r c k s) ∧ resolved last = true := by
  have hl := resolved_mask.2 hl
  obtain ⟨failed', last', h⟩ := poll_spec r c k (s := s) (by omega)
  obtain ⟨rfl, rfl⟩ := h.polls_listed hs (fun a ha => resolved_mask_ne.2 (hf a ha)) hb (.inl hl)
  exact ⟨h, hl⟩

/-- An accepted request whose coming answers are as many as the budget and fail the exit test polls exactly those (R155). -/
theorem poll_spends (r : Request) (c k : Word) {s : State} {failed rest : List Word} {last : Word}
    (hb : failed.length + 1 = s.cfg.pollBudget) (hs : s.envScript = failed ++ last :: rest)
    (hf : ∀ x ∈ failed, x &&& 0xC0000000#32 ≠ 0#32) :
    PollRun (startTransaction r c k s) failed last (poll r c k s) := by
  obtain ⟨failed', last', h⟩ := poll_spec r c k (s := s) (by omega)
  obtain ⟨rfl, rfl⟩ := h.polls_listed hs (fun a ha => resolved_mask_ne.2 (hf a ha)) hb.le (.inr hb)
  exact h

/-- Settles O20: the listed answers are the polls, and the one after them answers the CMD read. -/
theorem byteReadReturnsData : Obligations.ByteReadReturnsData := by
  intro s a cmd p failed last v rest hs hb hscript hf hl
  obtain ⟨c, k, he⟩ : ∃ c k, encodeRequest s.cfg.timingLo s.cfg.timingHi ⟨a, .read, cmd, .byte, p⟩ = some (c, k) :=
    ⟨_, _, rfl⟩
  obtain ⟨h, hl⟩ := poll_resolves ⟨a, .read, cmd, .byte, p⟩ c k hb hscript hf hl
  have hrest := h.envScript_listed hscript
  have hv := envAnswer_cons hrest cmdOff
  have hx := execute_accepted hs he
  rw [classify_read (h.passed hl).1, hv] at hx
  refine ⟨_, hx, rfl, rfl, rfl, h.pollCount_start, congrArg List.tail hrest, (h.passed hl).2, c, k, he, ?_⟩
  rw [finish_trace, readCmd_trace, hv, h.trace_start, pollEvents_append, pollEvents_failed h.unresolved,
    pollEvents_resolved hl]
  simp [startEvents]

/-- The encoder on an operation with a request. -/
theorem encode_request {i : Instr} {r : Request} (hi : i.request = some r) (lo : BitVec 8) (hi' : BitVec 16) :
    encode lo hi' i = encodeRequest lo hi' r := by
  rw [encode, hi]

section

variable {s : State} {i : Instr} {r : Request} {c k : Word} {failed rest : List Word} {last : Word}
  (hs : s.ready = true) (hi : i.request = some r) (he : encode s.cfg.timingLo s.cfg.timingHi i = some (c, k))
  (hscript : s.envScript = failed ++ last :: rest) (hf : ∀ x ∈ failed, x &&& 0xC0000000#32 ≠ 0#32)
include hs hi he hscript hf

/-- An accepted write whose coming answers are some that fail the exit test and one that passes it ends in Ok without data
after those polls, and makes no further access (R158, R173). -/
theorem exec_write_resolves (hd : r.dir = .write) (hb : failed.length < s.cfg.pollBudget)
    (hl : last &&& 0xC0000000#32 = 0#32) :
    ∃ t, exec i s = .next t ∧ t.res = some (.ok none) ∧ t.reply = some (.result (.ok none)) ∧ t.seq = .idle ∧
      t.pollCount = failed.length + 1 ∧ t.envScript = rest ∧ t.inflight = none ∧
      t.trace = s.trace ++ startEvents c k
        ++ failed.flatMap (fun x => [.read cscOff x, .sleep s.cfg.sleepMinUs s.cfg.sleepMaxUs]) ++ [.read cscOff last] := by
  obtain ⟨h, hl⟩ := poll_resolves r c k hb hscript hf hl
  have hx := execute_accepted hs (encode_request hi .. ▸ he)
  rw [hd, classify_write (h.passed hl).1, ← exec_request hi] at hx
  refine ⟨_, hx, rfl, rfl, rfl, h.pollCount_start, h.envScript_listed hscript, (h.passed hl).2, ?_⟩
  rw [finish_trace, h.trace_start, pollEvents_append, pollEvents_failed h.unresolved, pollEvents_resolved hl,
    List.append_assoc _ _ [_]]

/-- An accepted operation whose coming answers spend the budget ends in the error that the last of them names, after a sleep
for every poll, and makes no further access (R155, R158, R174 to R179). -/
theorem exec_spends (hb : failed.length + 1 = s.cfg.pollBudget) (hl : last &&& 0xC0000000#32 ≠ 0#32) :
    ∃ t, exec i s = .next t ∧ t.seq = .idle ∧ t.pollCount = s.cfg.pollBudget ∧ t.envScript = rest ∧
      t.res = some (timeoutResult last) ∧ t.reply = some (.result (timeoutResult last)) ∧
      t.trace = s.trace ++ startEvents c k
        ++ (failed ++ [last]).flatMap (fun x => [.read cscOff x, .sleep s.cfg.sleepMinUs s.cfg.sleepMaxUs]) := by
  have h := poll_spends r c k hb hscript hf
  have hl := resolved_mask_ne.2 hl
  have hx := execute_accepted hs (encode_request hi .. ▸ he)
  rw [classify_timedOut r.dir (h.spent hl).2.1 h.lastStatus, ← exec_request hi] at hx
  refine ⟨_, hx, rfl, h.pollCount_start.trans hb, h.envScript_listed hscript, rfl, rfl, ?_⟩
  rw [finish_trace, settleInflight_trace, h.trace_start, pollEvents_failed]
  simpa [or_imp, forall_and, hl] using h.unresolved

end

/-- Settles O21: both operations are accepted writes. -/
theorem writesReturnOk : Obligations.WritesReturnOk := by
  intro s i a cmd p failed last rest hi hs hb hscript hf hl
  obtain ⟨r, c, k, hr, hd, he⟩ : ∃ r c k, i.request = some r ∧ r.dir = .write ∧
      encode s.cfg.timingLo s.cfg.timingHi i = some (c, k) := by
    rcases hi with rfl | rfl <;> exact ⟨_, _, _, rfl, rfl, rfl⟩
  obtain ⟨t, ht, hres, hreply, hseq, hcount, henv, hinf, htrace⟩ :=
    exec_write_resolves hs hr he hscript hf hd hb hl
  exact ⟨t, ht, hres, hreply, hseq, hcount, henv, hinf, c, k, he, htrace⟩

/-- The result of a timeout after a failed poll, by LHE and RIP alone (R178). -/
theorem timeoutResult_of_failed {w : Word} (h : resolved w = false) :
    timeoutResult w = if flagLhe w || flagRip w then .busRecoveryFailed else .deviceNotResponding := by
  rw [resolved_eq_false] at h
  cases hl : flagLhe w <;> cases hr : flagRip w <;> simp_all [timeoutResult]

/-- Settles O22: the three operations are accepted, and the listed answers spend the budget. -/
theorem timeoutsReturnError : Obligations.TimeoutsReturnError := by
  intro s i a cmd p failed last rest hi hs hb hscript hf hl
  obtain ⟨r, c, k, hr, he⟩ : ∃ r c k, i.request = some r ∧ encode s.cfg.timingLo s.cfg.timingHi i = some (c, k) := by
    rcases hi with rfl | rfl | rfl <;> exact ⟨_, _, _, rfl, rfl⟩
  obtain ⟨t, ht, hseq, hcount, henv, hres, hreply, htrace⟩ := exec_spends hs hr he hscript hf hb hl
  rw [timeoutResult_of_failed (resolved_mask_ne.2 hl)] at hres hreply
  exact ⟨t, ht, hseq, hcount, henv, hres, hreply, c, k, he, htrace⟩

/-! ## Errors and counts -/

/-- An operation that resolved ended in Ok. -/
theorem ResolvedAfter.ok {s t : State} {d : Direction} {c k : Word} {failed : List Word} {last : Word}
    (h : ResolvedAfter s d c k failed last t) : ∃ data, t.res = some (.ok data) := by
  cases d with
  | read => obtain ⟨v, hv, -⟩ := h.read rfl; exact ⟨_, hv⟩
  | write => exact ⟨_, (h.write rfl).1⟩

/-- An operation that spent its budget did not end in Ok. -/
theorem SpentBudget.not_ok {s t : State} {c k : Word} {failed : List Word} {last : Word}
    (h : SpentBudget s c k failed last t) : ¬∃ data, t.res = some (.ok data) := by
  simp [h.result, timeoutResult_not_ok]

/-- A failed last poll gives BusRecoveryFailed for LHE or RIP alone (R174). -/
theorem timeoutResult_eq_busRecoveryFailed {w : Word} (hw : resolved w = false)
    (h : timeoutResult w = .busRecoveryFailed) : flagLhe w = true ∨ flagRip w = true := by
  rw [timeoutResult_of_failed hw] at h
  split at h
  · simp_all
  · contradiction

/-- DeviceNotResponding comes of NAK alone (R175). -/
theorem timeoutResult_eq_deviceNotResponding {w : Word} (h : timeoutResult w = .deviceNotResponding) :
    flagNak w = true ∧ flagRip w = false ∧ flagLhe w = false := by
  rcases timeoutResult_cases w with hb | ⟨-, hl, hr, hn⟩
  · simp [hb] at h
  · exact ⟨hn, hr, hl⟩

/-- Settles O23: a rejected shape delivers UnsupportedOperation; an accepted one that ends in an error has spent its budget. -/
theorem errorKindCauses : Obligations.ErrorKindCauses := by
  intro s t r hb hx
  rw [exec_instr] at hx
  rcases (execute_next hx).2 with ⟨he, rfl⟩ | ⟨c, k, he, -⟩
  case inl =>
    have hr := encodeRequest_eq_none.1 he
    exact ⟨fun _ => ⟨rfl, rfl⟩, fun _ => hr, by simp⟩
  case inr =>
    have hr : ¬(r.width = .other ∨ (r.width = .word ∧ r.dir = .read)) := fun g => by
      rw [encodeRequest_eq_none.2 g] at he
      contradiction
    refine ⟨fun g => absurd g hr, ?_⟩
    obtain ⟨-, failed, last, h | h⟩ := execute_transferred hb he hx
    · obtain ⟨d, hd⟩ := h.ok
      simp [hd]
    · refine ⟨fun g => ?_, fun _ => ⟨fun g => hr (.inl g), fun g => hr (.inr g), c, k, failed, last, h.budget, h.pollCount,
        h.trace, fun g => ?_, fun g => ?_⟩⟩
      · simp [h.result, timeoutResult_not_unsupported] at g
      · exact timeoutResult_eq_busRecoveryFailed h.fails (by simpa [h.result] using g)
      · exact timeoutResult_eq_deviceNotResponding (by simpa [h.result] using g)

/-- The polls of an operation read CSC alone. -/
theorem pollEvents_no_cmdRead (cfg : Config) (l : List Word) : (pollEvents cfg l).filter (isReadAt cmdOff) = [] := by
  induction l with
  | nil => rfl
  | cons a l ih => cases hr : resolved a <;> simpa [pollEvents, hr, isReadAt] using ih

/-- The accesses of some polls: a read of CSC for each. -/
theorem pollEvents_accesses (cfg : Config) (l : List Word) :
    ((pollEvents cfg l).filter (isReadAt cscOff)).length = l.length ∧
    ((pollEvents cfg l).filter isAccess).length = l.length := by
  induction l with
  | nil => exact ⟨rfl, rfl⟩
  | cons a l ih => cases hr : resolved a <;> simpa [pollEvents, hr, List.filter_cons, isReadAt, isAccess] using ih

/-- The sleeps of some polls: one for each that failed. -/
theorem pollEvents_sleeps (cfg : Config) (l : List Word) :
    ((pollEvents cfg l).filter isSleep).length = (l.filter (!resolved ·)).length ∧
    sleepBounds (pollEvents cfg l) =
      ((l.filter (!resolved ·)).length * cfg.sleepMinUs, (l.filter (!resolved ·)).length * cfg.sleepMaxUs) := by
  induction l with
  | nil => simp [pollEvents, sleepBounds]
  | cons a l ih =>
    obtain ⟨hsleep, hbounds⟩ := ih
    cases hr : resolved a <;> simp [pollEvents, hr, List.filter_cons, isSleep, sleepBounds, hsleep, hbounds, Nat.succ_mul]

theorem sleepBounds_append (l m : List Event) :
    sleepBounds (l ++ m) = ((sleepBounds l).1 + (sleepBounds m).1, (sleepBounds l).2 + (sleepBounds m).2) := by
  induction l with
  | nil => simp [sleepBounds]
  | cons e l ih =>
    cases e with
    | read | write => simp [sleepBounds, ih]
    | sleep lo hi => simp [sleepBounds, ih, Nat.add_right_comm]

/-- The counts of one operation's events: its two writes, `polls` polls with `sleeps` sleeps, and `fetches` reads of CMD. -/
structure EventCounts (cfg : Config) (events : List Event) (polls sleeps fetches : Nat) : Prop where
  cscWrites : (events.filter (isWriteAt cscOff)).length = 1
  cmdWrites : (events.filter (isWriteAt cmdOff)).length = 1
  cscReads  : (events.filter (isReadAt cscOff)).length = polls
  cmdReads  : (events.filter (isReadAt cmdOff)).length = fetches
  accesses  : (events.filter isAccess).length = 2 + polls + fetches
  slept     : (events.filter isSleep).length = sleeps
  bounds    : sleepBounds events = (sleeps * cfg.sleepMinUs, sleeps * cfg.sleepMaxUs)

/-- The events of an operation up to its last poll. -/
theorem eventCounts_polls (cfg : Config) (c k : Word) (l : List Word) :
    EventCounts cfg (startEvents c k ++ pollEvents cfg l) l.length (l.filter (!resolved ·)).length 0 := by
  obtain ⟨hcsc, haccess⟩ := pollEvents_accesses cfg l
  obtain ⟨hsleep, hbounds⟩ := pollEvents_sleeps cfg l
  constructor <;>
    simp [startEvents, List.filter_cons, isWriteAt, isReadAt, isAccess, isSleep, sleepBounds, pollEvents_no_write,
      pollEvents_no_cmdRead, hcsc, haccess, hsleep, hbounds]
  omega

/-- One read of CMD more. -/
theorem EventCounts.cmdRead {cfg : Config} {events : List Event} {polls sleeps : Nat}
    (h : EventCounts cfg events polls sleeps 0) (v : Word) :
    EventCounts cfg (events ++ [.read cmdOff v]) polls sleeps 1 := by
  constructor <;>
    simp [List.filter_cons, isWriteAt, isReadAt, isAccess, isSleep, sleepBounds, sleepBounds_append, h.cscWrites,
      h.cmdWrites, h.cscReads, h.cmdReads, h.accesses, h.slept, h.bounds]

/-- No poll of these slept but the last one, if it failed. -/
theorem failed_polls_length {failed : List Word} {last : Word} (h : ∀ a ∈ failed, resolved a = false) :
    ((failed ++ [last]).filter (!resolved ·)).length = failed.length + if resolved last then 0 else 1 := by
  have hf : failed.filter (!resolved ·) = failed := List.filter_eq_self.2 (by simpa using h)
  rw [List.filter_append, List.length_append, hf]
  cases hl : resolved last <;> simp [hl]

/-- The counts of an operation that resolved. -/
theorem ResolvedAfter.counts {s t : State} {d : Direction} {c k : Word} {failed : List Word} {last : Word}
    (h : ResolvedAfter s d c k failed last t) :
    ∃ events, t.trace = s.trace ++ events ∧
      EventCounts s.cfg events t.pollCount (t.pollCount - 1) (if d = .read then 1 else 0) := by
  have hn : EventCounts s.cfg (startEvents c k ++ pollEvents s.cfg (failed ++ [last])) t.pollCount (t.pollCount - 1) 0 := by
    have hn := eventCounts_polls s.cfg c k (failed ++ [last])
    rw [failed_polls_length h.unresolved, h.passes] at hn
    simpa [h.pollCount] using hn
  cases d with
  | read =>
    obtain ⟨v, -, -, ht⟩ := h.read rfl
    exact ⟨_, by rw [ht]; simp only [List.append_assoc], hn.cmdRead v⟩
  | write => exact ⟨_, (h.write rfl).2.2.trans (List.append_assoc ..), hn⟩

/-- The counts of an operation that spent its budget. -/
theorem SpentBudget.counts {s t : State} {c k : Word} {failed : List Word} {last : Word}
    (h : SpentBudget s c k failed last t) :
    ∃ events, t.trace = s.trace ++ events ∧ EventCounts s.cfg events s.cfg.pollBudget s.cfg.pollBudget 0 := by
  refine ⟨_, h.trace.trans (List.append_assoc ..), ?_⟩
  have hn := eventCounts_polls s.cfg c k (failed ++ [last])
  rw [failed_polls_length h.unresolved, h.fails] at hn
  simpa [h.budget] using hn

/-- Settles O24: the events of the two ends of an operation, counted. -/
theorem accessCounts : Obligations.AccessCounts := by
  intro s t r ⟨c, k⟩ hb he hx
  rw [exec_instr] at hx
  obtain ⟨-, failed, last, h | h⟩ := execute_transferred hb he hx
  case inl =>
    obtain ⟨events, ht, hn⟩ := h.counts
    exact ⟨events, ht, by rw [h.pollCount]; omega, by rw [h.pollCount]; exact h.budget, hn.cscWrites, hn.cmdWrites,
      hn.cscReads, fun _ => ⟨hn.cmdReads, hn.accesses, hn.slept, hn.bounds⟩, fun hno => absurd h.ok hno⟩
  case inr =>
    obtain ⟨events, ht, hn⟩ := h.counts
    exact ⟨events, ht, by rw [h.pollCount]; exact hb, h.pollCount.le, hn.cscWrites, hn.cmdWrites,
      hn.cscReads.trans h.pollCount.symm, fun hok => absurd hok h.not_ok,
      fun _ => ⟨h.pollCount, hn.cmdReads, hn.accesses, hn.slept, hn.bounds⟩⟩

end Sys2Proof.Machine

/-! PROOFS. Noninterference (10_state.md, 60_exceptions.md): an accepted operation does not see what earlier ones left. -/

namespace Sys2Proof.Machine

/-- Two states in the middle of the same operation: equal in all that the operation looks at or answers with, but for
LAST_STATUS, and free in RES, PRESCALE, BFT and the HOST's ports. -/
structure SameRun (s s' : State) : Prop where
  cfg       : s'.cfg = s.cfg
  seq       : s'.seq = s.seq
  pollCount : s'.pollCount = s.pollCount
  cmd       : s'.cmd = s.cmd
  cscConfig : s'.cscConfig = s.cscConfig
  cscFlags  : s'.cscFlags = s.cscFlags
  inflight  : s'.inflight = s.inflight
  trace     : s'.trace = s.trace
  envScript : s'.envScript = s.envScript
  envDraws  : s'.envDraws = s.envDraws

theorem SameRun.envAnswer {s s' : State} (h : SameRun s s') (off : Nat) : s'.envAnswer off = s.envAnswer off :=
  envAnswer_congr h.envScript h.trace h.envDraws off

theorem SameRun.history {s s' : State} (h : SameRun s s') : s'.history = s.history := by
  rw [State.history, State.history, h.trace]

/-- A start makes two states that agree in configuration, trace and ENV the same run. -/
theorem startTransaction_sameRun {s s' : State} (r : Request) (c k : Word) (hc : s'.cfg = s.cfg)
    (ht : s'.trace = s.trace) (he : s'.envScript = s.envScript) (hd : s'.envDraws = s.envDraws) :
    SameRun (startTransaction r c k s) (startTransaction r c k s') := by
  constructor <;> simp [startTransaction, State.history, hc, ht, he, hd]

/-- One poll keeps two states the same run, now with the same last status. -/
theorem pollOnce_sameRun {s s' : State} (h : SameRun s s') :
    SameRun (pollOnce s) (pollOnce s') ∧ (pollOnce s').lastStatus = (pollOnce s).lastStatus := by
  have hp := pollOnce_spec s
  have hp' := pollOnce_spec s'
  have ha := h.envAnswer cscOff
  have hfate : (pollOnce s').seq = (pollOnce s).seq ∧
      (pollOnce s').inflight = (pollOnce s).inflight := by
    cases hr : resolved (s.envAnswer cscOff) with
    | true =>
      obtain ⟨hq, hi⟩ := hp.passed hr
      obtain ⟨hq', hi'⟩ := hp'.passed (ha ▸ hr)
      exact ⟨hq'.trans hq.symm, hi'.trans hi.symm⟩
    | false =>
      obtain ⟨hi, hq⟩ := hp.failed hr
      obtain ⟨hi', hq'⟩ := hp'.failed (ha ▸ hr)
      rw [hq, hq', hi, hi', h.cfg, h.pollCount, h.seq, h.inflight]
      exact ⟨rfl, rfl⟩
  refine ⟨⟨?_, hfate.1, ?_, ?_, ?_, ?_, hfate.2, ?_, ?_, ?_⟩, ?_⟩
  · rw [hp'.cfg, hp.cfg, h.cfg]
  · rw [hp'.pollCount, hp.pollCount, h.pollCount]
  · rw [hp'.cmd, hp.cmd, h.cmd]
  · rw [hp'.cscConfig, hp.cscConfig, h.cscConfig]
  · rw [hp'.flags, hp.flags, ha]
  · rw [hp'.trace, hp.trace, h.trace, h.cfg, ha]
  · rw [hp'.envScript, hp.envScript, h.envScript]
  · rw [hp'.envDraws, hp.envDraws, h.envDraws]
  · rw [hp'.lastStatus, hp.lastStatus, ha]

/-- The poll loop keeps two states the same run. -/
theorem pollLoop_sameRun (n : Nat) {s s' : State} (h : SameRun s s') :
    SameRun (pollLoop n s) (pollLoop n s') ∧ (pollLoop n s').lastStatus = (pollLoop n s).lastStatus := by
  induction n generalizing s s' with
  | zero => exact pollOnce_sameRun h
  | succ n ih =>
    have hp := pollOnce_sameRun h
    rw [pollLoop, pollLoop, hp.1.seq]
    split
    · exact ih hp.1
    · exact hp

theorem readCmd_sameRun {s s' : State} (h : SameRun s s') : SameRun (readCmd s) (readCmd s') := by
  constructor <;>
    simp [h.envAnswer, h.cfg, h.seq, h.pollCount, h.cmd, h.cscConfig, h.cscFlags, h.inflight, h.trace, h.envScript, h.envDraws]

theorem settleInflight_sameRun {s s' : State} (h : SameRun s s') : SameRun (settleInflight s) (settleInflight s') := by
  constructor <;>
    simp [h.history, h.cfg, h.seq, h.pollCount, h.cmd, h.cscConfig, h.cscFlags, h.inflight, h.trace, h.envScript, h.envDraws]

theorem finish_sameRun {s s' : State} (h : SameRun s s') (r : TransferResult) : SameRun (finish r s) (finish r s') :=
  ⟨h.cfg, rfl, h.pollCount, h.cmd, h.cscConfig, h.cscFlags, h.inflight, h.trace, h.envScript, h.envDraws⟩

/-- The classification of an ended poll loop gives two states of the same run the same result. -/
theorem classify_sameRun {s s' : State} (h : SameRun s s') (hl : s'.lastStatus = s.lastStatus) (d : Direction)
    (hq : s.seq = .completed ∨ s.seq = .timedOut) :
    SameRun (classify d s) (classify d s') ∧ (classify d s').res = (classify d s).res ∧
      (classify d s').reply = (classify d s).reply := by
  rcases hq with hq | hq
  · cases d with
    | read =>
      rw [classify_read hq, classify_read (h.seq.trans hq), h.envAnswer]
      exact ⟨finish_sameRun (readCmd_sameRun h) _, rfl, rfl⟩
    | write =>
      rw [classify_write hq, classify_write (h.seq.trans hq)]
      exact ⟨finish_sameRun h _, rfl, rfl⟩
  · simp only [classify, hq, h.seq, hl]
    exact ⟨finish_sameRun (settleInflight_sameRun h) _, rfl, rfl⟩

/-- Settles O25: both states start the same run, and the poll loop and the classification keep it the same. -/
theorem earlierResultsLeaveNoMark : Obligations.EarlierResultsLeaveNoMark := by
  intro s s' t r hc ht he hd hi hq hb hwords hx
  obtain ⟨⟨c, k⟩, hck⟩ := Option.ne_none_iff_exists'.1 hwords
  rw [exec_instr] at hx ⊢
  have hs := (execute_next hx).1
  have hs' : s'.ready = true := ready_eq.2 ⟨hi.trans (ready_eq.1 hs).1, hq.trans (ready_eq.1 hs).2⟩
  rw [execute_accepted hs hck, Host.Outcome.next.injEq] at hx
  subst hx
  obtain ⟨failed, last, hrun⟩ := poll_spec r c k hb
  have hpoll : SameRun (poll r c k s) (poll r c k s') ∧ (poll r c k s').lastStatus = (poll r c k s).lastStatus := by
    rw [poll, poll, hc]
    exact pollLoop_sameRun _ (startTransaction_sameRun r c k hc ht he hd)
  obtain ⟨h, hres, hreply⟩ := classify_sameRun hpoll.1 hpoll.2 r.dir hrun.ended
  exact ⟨_, execute_accepted hs' (hc ▸ hck), hres, h.trace, h.pollCount, h.cmd,
    congrArg₂ (· ++ ·) h.cscFlags h.cscConfig, h.inflight, hreply, h.envScript, h.envDraws⟩

end Sys2Proof.Machine

/-! PROOFS. The register window (20_memory.md, 44_i2c_master.md): the accesses of the CORE that it takes, what it refuses, and
the two accesses that depend on those before. -/

namespace Sys2Proof.Machine

/-! ## What each register does with an access -/

section

variable {s : State} (hb : s.cfg.base % 4 = 0)
include hb

theorem write32_csc_ok {v : Word} (h : reservedClock v = none) : write32 cscOff v s = .ok (writeCsc v s) := by
  simp [write32, memWrite, windowReg_at (off := cscOff) hb rfl, h]

theorem write32_csc_error {v : Word} {e : DecodeError} (h : reservedClock v = some e) :
    write32 cscOff v s = .error (.reservedEncoding e) := by
  simp [write32, memWrite, windowReg_at (off := cscOff) hb rfl, h]

theorem write32_cmd_ok {v : Word} (h : reservedCommand v = none) : write32 cmdOff v s = .ok (writeCmd v s) := by
  simp [write32, memWrite, windowReg_at (off := cmdOff) hb rfl, h]

theorem write32_cmd_error {v : Word} {e : DecodeError} (h : reservedCommand v = some e) :
    write32 cmdOff v s = .error (.reservedEncoding e) := by
  simp [write32, memWrite, windowReg_at (off := cmdOff) hb rfl, h]

theorem read32_csc : read32 cscOff s = .ok (s.envAnswer cscOff, readCsc s) := by
  rw [read32, memRead, windowReg_at (off := cscOff) hb rfl]

theorem read32_cmd_ok (h : s.readResolved = true) : read32 cmdOff s = .ok (s.envAnswer cmdOff, readCmd s) :=
  (read32_cmd hb).trans (if_pos h)

theorem read32_cmd_early (h : s.readResolved = false) : read32 cmdOff s = .error .commandReadEarly :=
  (read32_cmd hb).trans (if_neg (by simp [h]))

theorem read32_prescale : read32 prescaleOff s = .error .prescaleRead := by
  rw [read32, memRead, windowReg_at (off := prescaleOff) hb rfl]

theorem write32_bft (v : Word) : write32 bftOff v s = .error .busFreeTimeAccess := by
  rw [write32, memWrite, windowReg_at (off := bftOff) hb rfl]

theorem read32_bft : read32 bftOff s = .error .busFreeTimeAccess := by
  rw [read32, memRead, windowReg_at (off := bftOff) hb rfl]

end

/-- What the window does not reach, it refuses with the same name for a write and a read. -/
theorem window_error {s : State} {addr width : Nat} {e : Refusal} (h : windowReg s.cfg addr width = .error e) (v : Word) :
    memWrite addr width v s = .error e ∧ memRead addr width s = .error e := by
  rw [memWrite, memRead, h]
  exact ⟨rfl, rfl⟩

/-- An aligned address outside the four registers is refused (R63). -/
theorem windowReg_otherOffset {cfg : Config} {addr : Nat} (ha : addr % 4 = 0)
    (h : addr < cfg.base + 0x0C8 ∨ cfg.base + 0x0D7 < addr) : windowReg cfg addr 4 = .error .otherOffset := by
  by_cases hlt : addr < cfg.base
  · simp [windowReg, ha, hlt]
  · simp [windowReg, ha, hlt, regAt_eq_none (off := addr - cfg.base) (by omega)]

/-! ## The accesses of the CORE -/

/-- A read transaction in COMPLETED is one that the trace shows resolved. -/
theorem SequencerInv.readResolved {s : State} (h : SequencerInv s) {r : Request} (hq : s.seq = .completed)
    (ho : s.op = some r) (hd : r.dir = .read) : s.readResolved = true := by
  obtain ⟨-, r', c, k, ho', -, -, -, -, he, hobs⟩ := h.busy (by simp [hq])
  obtain rfl : r' = r := by simpa [ho'] using ho
  exact readResolved_eq.2 ⟨c, by simpa [hq] using hobs, (encodeRequest_direction he).trans hd⟩

/-- Settles O32: the encoder's words are not reserved, and where the classifier reads CMD a read has resolved. -/
theorem coreAccessesTaken : Obligations.CoreAccessesTaken := by
  intro s hb
  refine ⟨fun r c k he => ?request, read32_csc hb, fun r hs hq ho hd => read32_cmd_ok hb (hs.readResolved hq ho hd),
    fun hp => (write32_prescale hb).trans (by simp [hp])⟩
  case request =>
    obtain ⟨hc, hk⟩ := encodeRequest_unreserved he
    refine ⟨write32_csc_ok hb hk, write32_cmd_ok hb hc, fun hd hbudget hq => ?_⟩
    obtain ⟨failed, last, hrun⟩ := poll_spec r c k hbudget
    have hbase : (poll r c k s).cfg.base % 4 = 0 := by
      rw [hrun.cfg]
      exact hb
    exact read32_cmd_ok hbase (poll_readResolved hbudget ((encodeRequest_direction he).trans hd) hq)

/-! ## Refusals -/

/-- Bits 28:25 of a companion by their mask (R105). -/
theorem cscReserved_eq_zero {k : Word} : cscReserved k = 0#4 ↔ k &&& 0x1E000000#32 = 0#32 :=
  (and_run_eq_zero (by decide) (by decide)).symm

/-- The flags of a companion by their mask (R105). -/
theorem cscFlagBits_eq_zero {k : Word} : cscFlagBits k = 0#3 ↔ k &&& 0xE0000000#32 = 0#32 :=
  (and_run_eq_zero (by decide) (by decide)).symm

/-- Before the first trigger there is no read transaction. -/
theorem readResolved_untriggered {s : State} (h : s.trace.any (isWriteAt cmdOff) = false) : s.readResolved = false := by
  simp [State.readResolved, observed_eq_none h]

/-- The latest trigger decides whether a read transaction has resolved: it was of a read, and a poll since passed the exit
test. -/
theorem readResolved_triggered {s : State} {before after : List Event} {w : Word}
    (ht : s.trace = before ++ .write cmdOff w :: after) (h : after.any (isWriteAt cmdOff) = false) :
    s.readResolved = true ↔ (∃ a, .read cscOff a ∈ after ∧ resolved a = true) ∧ cmdDirection w = .read := by
  obtain ⟨b, hobs, hb⟩ := observed_after_trigger ht h
  simp [State.readResolved, hobs, ← hb]

/-- Settles O33: the guards of the window, in their order, and the history behind a read of CMD. -/
theorem windowRefusals : Obligations.WindowRefusals := by
  intro s v
  refine ⟨fun addr width hw => window_error (by simp [windowReg, hw]) v,
    fun addr ha => window_error (by simp [windowReg, ha]) v,
    fun addr ha h _ => window_error (windowReg_otherOffset ha h) v, fun hb => ?_⟩
  refine ⟨fun h => write32_cmd_error hb ?wordRead, fun hm hh => write32_cmd_error hb ?high,
    fun h => write32_csc_error hb ?clock, fun hz h => write32_csc_error hb ?flags, write32_bft hb v, read32_bft hb,
    read32_prescale hb, fun h => (write32_prescale hb).trans (if_pos (prescaleWritten_eq.2 h)),
    fun hi ht hv => (write32_prescale hb).trans ?value, fun h => read32_cmd_early hb (readResolved_untriggered h),
    fun before after w ht h hor => read32_cmd_early hb ?early⟩
  case wordRead =>
    have hm : cmdMaf v = true := cmdMaf_of_and h rfl
    have hd : cmdDirection v = .read := cmdDirection_of_and h rfl
    simp [reservedCommand, hm, hd]
  case high =>
    have hm : cmdMaf v = false := cmdMaf_of_and hm rfl
    simp [reservedCommand, hm, cmdMasterHigh_eq_zero, hh]
  case clock => simp [reservedClock, cscReserved_eq_zero, h]
  case flags => simp [reservedClock, cscReserved_eq_zero, cscFlagBits_eq_zero, hz, h]
  case value => simp [State.prescaleWritten, hi, ht, hv]
  case early =>
    rw [← Bool.not_eq_true, readResolved_triggered ht h]
    rintro ⟨⟨a, ha, hr⟩, hd⟩
    rcases hor with hw | hor
    · simp [cmdDirection, hw] at hd
    · exact hor a ha (resolved_mask.1 hr)

/-! ## Write-once -/

/-- Everything a write that the window takes can do. -/
theorem memWrite_ok {s t : State} {addr width : Nat} {v : Word} (h : memWrite addr width v s = .ok t) :
    t = writeCsc v s ∨ t = writeCmd v s ∨
      (t = writePrescale v s ∧ s.prescaleWritten = false ∧ v = s.cfg.prescale400k) := by
  unfold memWrite at h
  split at h
  case h_1 | h_5 => contradiction
  case h_2 => cases hk : reservedClock v <;> simp_all
  case h_3 => cases hc : reservedCommand v <;> simp_all
  case h_4 =>
    by_cases hp : s.prescaleWritten = true
    · simp [hp] at h
    · by_cases hv : v = s.cfg.prescale400k <;> simp_all

/-- Everything a read that the window takes can do. -/
theorem memRead_ok {s t : State} {addr width : Nat} {v : Word} (h : memRead addr width s = .ok (v, t)) :
    t = readCsc s ∨ t = readCmd s := by
  unfold memRead at h
  split at h
  case h_1 | h_4 | h_5 => contradiction
  case h_2 => simp_all
  case h_3 => cases hr : s.readResolved <;> simp_all

/-- Settles O42: the window compares the value and looks at the history, and no access takes an event out of it. -/
theorem prescaleWrittenOnce : Obligations.PrescaleWrittenOnce := by
  refine ⟨fun s t v hb h => ?taken, fun s v hb hp => (write32_prescale hb).trans (if_pos hp),
    fun s t addr width v hp h => ?write, fun s t addr width v hp h => ?read⟩
  case taken =>
    rw [write32_prescale hb] at h
    cases hp : s.prescaleWritten with
    | true => simp [hp] at h
    | false =>
      by_cases hv : v = s.cfg.prescale400k
      · rw [hp, if_neg Bool.false_ne_true, if_pos hv, Except.ok.injEq] at h
        subst h
        exact ⟨rfl, hv, rfl, by simp [State.prescaleWritten, isWriteAt]⟩
      · simp [hp, hv] at h
  case write =>
    rcases memWrite_ok h with rfl | rfl | ⟨-, hp', -⟩
    · exact prescaleWritten_of_trace hp rfl (writeCsc_trace v s)
    · exact prescaleWritten_of_trace hp rfl (writeCmd_trace v s)
    · simp [hp] at hp'
  case read =>
    rcases memRead_ok h with rfl | rfl
    · exact prescaleWritten_of_trace hp rfl (readCsc_trace s)
    · exact prescaleWritten_of_trace hp rfl (readCmd_trace s)

/-! ## Reading CMD -/

/-- After an operation that spent its budget no poll has shown its transaction resolved. -/
theorem SpentBudget.readResolved {s t : State} {c k : Word} {failed : List Word} {last : Word}
    (h : SpentBudget s c k failed last t) : t.readResolved = false := by
  have hobs : t.observed = some { word := c, resolved := false } := by
    have hstart : (startEvents c k).foldl observe s.observed = some { word := c, resolved := false } := rfl
    rw [observed_append (h.trace.trans (List.append_assoc ..)), List.foldl_append, hstart, observe_pollEvents]
    simpa [h.fails] using h.unresolved
  simp [State.readResolved, hobs]

/-- Settles O43: a resolving poll since the trigger of a read opens CMD, and a spent budget has none. -/
theorem commandReadAfterResolvingPoll : Obligations.CommandReadAfterResolvingPoll := by
  refine ⟨fun s before after w a hb ht h hw ha hr => ?resolved, fun s t r hb hbudget hx herr => ?spent⟩
  case resolved =>
    have hd : cmdDirection w = .read := by simp only [cmdDirection, hw]; rfl
    exact read32_cmd_ok hb ((readResolved_triggered ht h).2 ⟨⟨a, ha, resolved_mask.2 hr⟩, hd⟩)
  case spent =>
    rw [exec_instr] at hx
    rcases (execute_next hx).2 with ⟨-, rfl⟩ | ⟨c, k, he, -⟩
    · simp at herr
    · obtain ⟨hleft, failed, last, h | h⟩ := execute_transferred hbudget he hx
      · obtain ⟨d, hd⟩ := h.ok
        simp [hd] at herr
      · exact read32_cmd_early (hleft.cfg ▸ hb) h.readResolved

end Sys2Proof.Machine
